-- ==== Sys2Proof/Word.lean ====
section
/-! DEFINITION. The word types of the block (spec/00_scope.md R11: bit 0 is the least significant bit) and the
channel name of a lookup. Every wider quantity of the rules is a mathematical integer (R11), written `Nat` or `Int`. -/

namespace Sys2Proof

/-- A table entry, a result byte, an 8-bit operand (R6, R23, R76). -/
abbrev Byte := BitVec 8

/-- An event word, the sample slot, the filtered level, a counter (R70, R20). -/
abbrev Word := BitVec 16

/-- The two audio channels: the value of the field CH (spec/30_encoding.md R77). -/
inductive Channel where
  /-- CH = 0: offset RIGHT_OFFSET, result to YR. -/
  | right
  /-- CH = 1: offset LEFT_OFFSET, result to YL. -/
  | left
deriving DecidableEq, Repr

end Sys2Proof
end

