-- ==== Sys2Proof/Syntax.lean ====
section
/-! DEFINITION. The operations: one constructor per row of spec/opcode_table.json (spec/30_encoding.md R74). The
operand types are exactly the operand fields of the formats, so an operand outside its field cannot be written. -/

namespace Sys2Proof

/-- The twelve operations of R74. -/
inductive Instr where
  /-- NOP, R160. -/
  | nop
  /-- LKUP CH, X8: R105. -/
  | lkup (ch : Channel) (x : Byte)
  /-- FILT X8: R121. -/
  | filt (x : Byte)
  /-- SCAN, R131. -/
  | scan
  /-- SMPL C10: R150. -/
  | smpl (c : BitVec 10)
  /-- UPDT, R155. -/
  | updt
  /-- SEND, R153. -/
  | send
  /-- MUTS, R176. -/
  | muts
  /-- ETCK, R177. -/
  | etck
  /-- SLOW, R173. -/
  | slow
  /-- TKF, R170. -/
  | tkf
  /-- TKS, R171. -/
  | tks
deriving DecidableEq, Repr

/-- The mnemonic of R74. -/
def Instr.mnemonic : Instr → String
  | .nop => "NOP"
  | .lkup _ _ => "LKUP"
  | .filt _ => "FILT"
  | .scan => "SCAN"
  | .smpl _ => "SMPL"
  | .updt => "UPDT"
  | .send => "SEND"
  | .muts => "MUTS"
  | .etck => "ETCK"
  | .slow => "SLOW"
  | .tkf => "TKF"
  | .tks => "TKS"

end Sys2Proof
end

