-- ==== Sys2Proof/Config.lean ====
section
/-! DEFINITION. The configuration record of the block (spec/00_scope.md R5 to R10, spec/92_eei_decisions.md "Open
parameters in one list") as plain data, the constants the spec fixes, and the free values: constants without a body,
of which nothing can be proved. -/

namespace Sys2Proof

/-- One breakpoint: the pair BP_IN[i], BP_OUT[i] (R6; the two parallel arrays have one length by construction). -/
structure Breakpoint where
  inp : Byte
  out : Byte
deriving DecidableEq, Repr, Inhabited

/-- The parameters a model takes as one record (R6, R8, R9, R10). What makes it well-formed is `ConfigData.wf`. -/
structure ConfigData where
  /-- TABLE: the breakpoints in index order (R6). -/
  table : List Breakpoint
  /-- LEFT_OFFSET, a configuration field with the value 4 (R8). -/
  leftOffset : Nat := 4
  /-- FAST_DIV, fast ticks per sample trigger (R9). -/
  fastDiv : Nat
  /-- SLOW_DIV, slow ticks per slow-period event (R9). -/
  slowDiv : Nat
  /-- SEC_DIV, slow-period events per increment of ELAPSED (R9; nominal 50). -/
  secDiv : Nat := 50
  /-- STABLE_RESET, the reset value of STABLE (R10; default 0). -/
  stableReset : Nat := 0
deriving DecidableEq, Repr, Inhabited

namespace Config

/-- N, the number of drive lines and scan positions (R5). -/
abbrev lines : Nat := 5

/-- DEADBAND (R7). -/
abbrev deadband : Int := 1

/-- RIGHT_OFFSET (R8). -/
abbrev rightOffset : Nat := 0

/-- 2^EW - 1, the value at which ELAPSED saturates (R10, R30). -/
abbrev elapsedMax : Nat := 65535

/-- The parameters the spec leaves open, of the machine that `State.reset` describes. DESIGN CHOICE, safe (log 2). -/
opaque openParams : ConfigData

/-- The level of SDO where spec/10_state.md R46 leaves it unspecified. DESIGN CHOICE, safe (log 7). -/
opaque freeLevel : Nat → Bool

/-- What a 16-bit divider counter holds after it has counted past its top without matching its period, which the spec
does not define (spec/93_implementation_defined.md U8). DESIGN CHOICE, safe (log 8). -/
opaque freeCount : Nat → Word

end Config

end Sys2Proof
end

