-- ==== Sys2Proof/WellFormed.lean ====
section
/-! DEFINITION. Well-formedness. The conditions of spec/00_scope.md R6, R8, R9, R10 on the configuration, one named
check each (an ill-formed configuration is not instantiated: spec/93_implementation_defined.md U8), the checked
record `Config`, and the well-formedness of an operation. -/

namespace Sys2Proof

namespace ConfigData

/-- 2 <= n <= 256 (R6). -/
def tableLengthOk (d : ConfigData) : Bool :=
  decide (2 ≤ d.table.length) && decide (d.table.length ≤ 256)

/-- Neighbouring inputs do not decrease. -/
def nonDecreasing : List Breakpoint → Bool
  | [] => true
  | [_] => true
  | a :: b :: rest => decide (a.inp.toNat ≤ b.inp.toNat) && nonDecreasing (b :: rest)

/-- BP_IN[i] <= BP_IN[i+1] (R6; repeats allowed, spec/90_conflicts.md C4). -/
def tableSorted (d : ConfigData) : Bool := nonDecreasing d.table

/-- 0 <= LEFT_OFFSET <= 255 (R8). -/
def leftOffsetOk (d : ConfigData) : Bool := decide (d.leftOffset ≤ 255)

/-- A divider parameter is from 1 to 65535 (R9). -/
def dividerOk (k : Nat) : Bool := decide (1 ≤ k) && decide (k ≤ 65535)

/-- 0 <= STABLE_RESET <= 255 (R10). -/
def stableResetOk (d : ConfigData) : Bool := decide (d.stableReset ≤ 255)

/-- All the conditions the spec puts on a configuration. -/
def wf (d : ConfigData) : Bool :=
  d.tableLengthOk && d.tableSorted && d.leftOffsetOk && dividerOk d.fastDiv && dividerOk d.slowDiv
    && dividerOk d.secDiv && d.stableResetOk

end ConfigData

/-- A checked configuration: the only kind a machine is instantiated with (U8). -/
structure Config where
  data : ConfigData
  ok : data.wf = true
deriving DecidableEq, Repr

namespace Config

/-- Some well-formed configuration, used only where the open parameters would not be well-formed (log 2). -/
def someWellFormed : Config :=
  ⟨{ table := [⟨0, 0⟩, ⟨255, 255⟩], fastDiv := 1, slowDiv := 1 }, by decide⟩

/-- The configuration of the machine that `State.reset` describes: every open parameter is an opaque value, and
LEFT_OFFSET is 4 (R8). No proof can tell which well-formed configuration it is. DESIGN CHOICE, safe (log 2). -/
def boot : Config :=
  if h : ({ openParams with leftOffset := 4 } : ConfigData).wf = true then ⟨_, h⟩ else someWellFormed

end Config

/-- Every operation of the type is well-formed: the operand fields of R72, R73, R75 are the operand types, FILT has no
CH field to be wrong (R73), and the must-be-zero fields are not part of an operation (R81 is the decoder's). -/
def Instr.wf : Instr → Bool
  | .nop => true
  | .lkup _ _ => true
  | .filt _ => true
  | .scan => true
  | .smpl _ => true
  | .updt => true
  | .send => true
  | .muts => true
  | .etck => true
  | .slow => true
  | .tkf => true
  | .tks => true

end Sys2Proof
end

