-- ==== Sys2Proof/Decode.lean ====
section
/-! DEFINITION. The event-word decoder (spec/30_encoding.md R70 to R81), total on every 16-bit word and rejecting by
name; the encoder written from the same formats; the opcode map of R74 as rows of word and mask. -/

namespace Sys2Proof

/-- Why a word names no operation. -/
inductive Reserved where
  /-- The opcode is 0xC to 0xF (R80). -/
  | opcode
  /-- The must-be-zero field of the opcode's format is not zero (R81). -/
  | mustBeZero
deriving DecidableEq, Repr

/-! ### Fields (R71, R72, R73, R75, R76, R77, R78) -/

/-- OP = W[15:12]. -/
def opField (w : Word) : BitVec 4 := w.extractLsb' 12 4

/-- ZERO12 = W[11:0] of format Z. -/
def zero12 (w : Word) : BitVec 12 := w.extractLsb' 0 12

/-- ZERO3 = W[11:9] of format B. -/
def zero3 (w : Word) : BitVec 3 := w.extractLsb' 9 3

/-- CH = W[8] of format B. -/
def chBit (w : Word) : Bool := w.getLsbD 8

/-- X8 = W[7:0] of format B. -/
def x8 (w : Word) : Byte := w.extractLsb' 0 8

/-- ZERO2 = W[11:10] of format S. -/
def zero2 (w : Word) : BitVec 2 := w.extractLsb' 10 2

/-- C10 = W[9:0] of format S. -/
def c10 (w : Word) : BitVec 10 := w.extractLsb' 0 10

/-- CH as a channel (R77). -/
def Channel.ofBit (b : Bool) : Channel := if b then .left else .right

/-- A channel as CH (R77). -/
def Channel.toBit : Channel → BitVec 1
  | .right => 0#1
  | .left => 1#1

/-! ### Decoding (R79) -/

/-- A word of format Z: no operand, and ZERO12 must be 0 (R72). -/
def decodeZ (w : Word) (i : Instr) : Except Reserved Instr :=
  if zero12 w = 0#12 then .ok i else .error .mustBeZero

/-- LKUP: format B with its channel bit; ZERO3 must be 0 (R73). -/
def decodeLkup (w : Word) : Except Reserved Instr :=
  if zero3 w = 0#3 then .ok (.lkup (Channel.ofBit (chBit w)) (x8 w)) else .error .mustBeZero

/-- FILT: format B; ZERO3 and CH must be 0 (R73). -/
def decodeFilt (w : Word) : Except Reserved Instr :=
  if zero3 w = 0#3 ∧ chBit w = false then .ok (.filt (x8 w)) else .error .mustBeZero

/-- SMPL: format S; ZERO2 must be 0 (R75). -/
def decodeSmpl (w : Word) : Except Reserved Instr :=
  if zero2 w = 0#2 then .ok (.smpl (c10 w)) else .error .mustBeZero

/-- Decoding, in the order of R79: opcode, reserved opcode, format, must-be-zero field, operands. -/
def decode (w : Word) : Except Reserved Instr :=
  match (opField w).toNat with
  | 0x0 => decodeZ w .nop
  | 0x1 => decodeLkup w
  | 0x2 => decodeFilt w
  | 0x3 => decodeZ w .scan
  | 0x4 => decodeSmpl w
  | 0x5 => decodeZ w .updt
  | 0x6 => decodeZ w .send
  | 0x7 => decodeZ w .muts
  | 0x8 => decodeZ w .etck
  | 0x9 => decodeZ w .slow
  | 0xA => decodeZ w .tkf
  | 0xB => decodeZ w .tks
  | _ => .error .opcode

/-- The operation decoded from a table word of `nbits` bits, the bits above being zero. -/
def decodeTableWord (nbits w : Nat) : Option Instr :=
  match decode (BitVec.ofNat 16 (w % 2 ^ nbits)) with
  | .ok i => some i
  | .error _ => none

/-! ### Encoding -/

/-- The opcode of an operation (R74). -/
def Instr.opcode : Instr → BitVec 4
  | .nop => 0x0#4
  | .lkup _ _ => 0x1#4
  | .filt _ => 0x2#4
  | .scan => 0x3#4
  | .smpl _ => 0x4#4
  | .updt => 0x5#4
  | .send => 0x6#4
  | .muts => 0x7#4
  | .etck => 0x8#4
  | .slow => 0x9#4
  | .tkf => 0xA#4
  | .tks => 0xB#4

/-- The twelve bits below the opcode: format Z, B or S (R72, R73, R75). -/
def Instr.operandBits : Instr → BitVec 12
  | .lkup ch x => 0#3 ++ ch.toBit ++ x
  | .filt x => 0#4 ++ x
  | .smpl c => 0#2 ++ c
  | .nop => 0#12
  | .scan => 0#12
  | .updt => 0#12
  | .send => 0#12
  | .muts => 0#12
  | .etck => 0#12
  | .slow => 0#12
  | .tkf => 0#12
  | .tks => 0#12

/-- The event word of an operation. -/
def encode (i : Instr) : Word := i.opcode ++ i.operandBits

/-! ### The opcode map as data (R74) -/

/-- A row of R74: the word with its operand fields zero, and the mask of the bits that must match. -/
structure OpRow where
  mnemonic : String
  word : Word
  mask : Word
deriving DecidableEq, Repr

/-- The twelve rows of R74 and of spec/opcode_table.json. -/
def opcodeRows : List OpRow :=
  [ ⟨"NOP", 0x0000, 0xFFFF⟩, ⟨"LKUP", 0x1000, 0xFE00⟩, ⟨"FILT", 0x2000, 0xFF00⟩, ⟨"SCAN", 0x3000, 0xFFFF⟩,
    ⟨"SMPL", 0x4000, 0xFC00⟩, ⟨"UPDT", 0x5000, 0xFFFF⟩, ⟨"SEND", 0x6000, 0xFFFF⟩, ⟨"MUTS", 0x7000, 0xFFFF⟩,
    ⟨"ETCK", 0x8000, 0xFFFF⟩, ⟨"SLOW", 0x9000, 0xFFFF⟩, ⟨"TKF", 0xA000, 0xFFFF⟩, ⟨"TKS", 0xB000, 0xFFFF⟩ ]

/-- A word requests the operation of a row when it matches the row under its mask (R74). -/
def OpRow.requestedBy (r : OpRow) (w : Word) : Bool := w &&& r.mask == r.word

end Sys2Proof
end

