-- ==== Sys2Proof/Machine/State.lean ====
section
/-! DEFINITION. The state of the block: the twelve registers of spec/10_state.md R20, the output pins of R46, the
output trace of R44, the input ports of R40 to R42, and the configuration it is instantiated with. Plain data. -/

namespace Sys2Proof.Machine

/-- The levels of the output pins that are not registers (spec/60_exceptions.md R220, spec/10_state.md R44). -/
structure Pins where
  /-- CS_N, chip-select, active low. -/
  csN : Bool
  /-- SCK, serial clock, idle high. -/
  sck : Bool
  /-- SDO, serial data out. -/
  sdo : Bool
  /-- SAMPLE_TRIG, pulsed by TKF on a match. -/
  sampleTrig : Bool
deriving DecidableEq, Repr

/-- An output event (R44). -/
inductive OutEvent where
  /-- A request to the analog front end to start one conversion. -/
  | sampleTrig
  /-- One serial transaction carrying the right byte, then the left byte (R152). -/
  | frame (r l : Byte)
deriving DecidableEq, Repr

/-- What the environment presents at one step: the event word, and its answers at the sampled input ports (R40, R41,
R42; spec/93_implementation_defined.md U10). -/
structure Event where
  /-- EVW. -/
  word : Word
  /-- Bit k is the level SENSE has while drive line k is the driven line: the environment may answer by the new DRIVE
  value (R41). All ones is SENSE = 1, all zeros SENSE = 0, `onehot5 p` a switch at position p (R137). Log 4. -/
  contacts : BitVec 5
  /-- MUTE_IN. -/
  muteIn : Bool
deriving DecidableEq, Repr

/-- The machine's state. -/
structure State where
  /-- The configuration (R5 to R10): no operation writes it (spec/20_memory.md R51). Log 1. -/
  cfg : Config
  /-- RAW, the sample slot (R21). -/
  raw : Word
  /-- STABLE, the filtered level, two's complement (R22). -/
  stable : Word
  /-- YR, the right-channel result byte (R23). -/
  yr : Byte
  /-- YL, the left-channel result byte (R23). -/
  yl : Byte
  /-- SEL, the detected position; 7 is unknown (R26). -/
  sel : BitVec 3
  /-- PHASE, the line the next scan step drives, 0 to 4 (R27; the illegal values are excluded by the type, U5). Log 6. -/
  phase : Fin 5
  /-- DRIVE, the drive lines (R28). -/
  drive : BitVec 5
  /-- MUTE, the only flag (R25). -/
  mute : Bool
  /-- ELAPSED (R30). -/
  elapsed : Word
  /-- SUBSEC (R31). -/
  subsec : Word
  /-- FCNT (R32). -/
  fcnt : Word
  /-- SCNT (R33). -/
  scnt : Word
  /-- The output pins. -/
  pins : Pins
  /-- The output trace, oldest event first (R44). -/
  trace : List OutEvent
  /-- The input port SENSE, as the environment answers it in this step (R41). -/
  contacts : BitVec 5
  /-- The input port MUTE_IN (R42). -/
  muteIn : Bool
  /-- The events the environment has still to present, in order: the model's own field (R40, R212). Log 3. -/
  events : List Event
  /-- How many free values have been taken: the model's own field. Logs 7, 8. -/
  freeIdx : Nat
deriving DecidableEq, Repr

/-- The block raises no exception and has no fault state (spec/60_exceptions.md R200, R202): there is no fault. Log 17. -/
inductive Fault where
deriving DecidableEq, Repr

/-- Why a run is refused. -/
inductive Refusal where
  /-- An operation without a meaning; no arm of `exec` raises it. Safe. -/
  | notModelled (mnemonic : String)
  /-- Raised by `step` on a word whose opcode is 0xC to 0xF (spec/30_encoding.md R80, U1). Safe: the hardware does
  nothing and goes on. -/
  | reservedOpcode (w : Word)
  /-- Raised by `step` on a word whose must-be-zero field is not zero (spec/30_encoding.md R81, U1). Safe: the hardware
  does nothing and goes on. -/
  | reservedField (w : Word)
deriving DecidableEq, Repr

/-- The reset state of R46 under configuration `c`: SDO is unspecified there, so its level is free value number `k`. The
input ports are not registers and have no reset value: they read 0 here and are written before any step samples them
(log 10). -/
def State.resetWith (c : Config) (k : Nat) : State where
  cfg := c
  raw := 0x0000#16
  stable := BitVec.ofNat 16 c.data.stableReset
  yr := 0x00#8
  yl := 0x00#8
  sel := 7#3
  phase := 0
  drive := 0b00000#5
  mute := false
  elapsed := 0#16
  subsec := 0#16
  fcnt := 0#16
  scnt := 0#16
  pins := ⟨true, true, Config.freeLevel k, false⟩
  trace := []
  contacts := 0#5
  muteIn := false
  events := []
  freeIdx := k + 1

/-- The machine right after reset (R46, R240), of a configuration that is not known (log 2). -/
def State.reset : State := State.resetWith Config.boot 0

end Sys2Proof.Machine
end

