-- ==== Sys2Proof/Machine/Operands.lean ====
section
/-! DEFINITION. Operand forms: table reads (spec/20_memory.md R52), the channel offset (spec/40_interpolation.md R104),
the forms in which RAW and STABLE enter an operation (spec/43_serial_pipeline.md R151, R155, R161), and the output ports
(spec/10_state.md R43). -/

namespace Sys2Proof.Machine

/-! ### The breakpoint table -/

/-- n, the number of breakpoints (R6). -/
def tableSize (c : Config) : Nat := c.data.table.length

/-- `MemRead(BP_IN, i, 1)`; an index outside 0 to n-1 reads nothing (R52). -/
def readIn (c : Config) (i : Nat) : Option Byte := (c.data.table[i]?).map Breakpoint.inp

/-- `MemRead(BP_OUT, i, 1)`; an index outside 0 to n-1 reads nothing (R52). -/
def readOut (c : Config) (i : Nat) : Option Byte := (c.data.table[i]?).map Breakpoint.out

/-- BP_IN[i] as an unsigned number. `lookup` forms no index outside the table (R52), so the 0 is never read (log 15). -/
def bpIn (c : Config) (i : Nat) : Nat := ((readIn c i).map BitVec.toNat).getD 0

/-- BP_OUT[i] as an unsigned number (log 15 as above). -/
def bpOut (c : Config) (i : Nat) : Nat := ((readOut c i).map BitVec.toNat).getD 0

/-- OFFSET of a channel (R8, R77, R104). -/
def channelOffset (c : Config) : Channel → Nat
  | .right => Config.rightOffset
  | .left => c.data.leftOffset

/-- `min(x + OFFSET, 255)`: the sum saturates, it does not wrap (R104). -/
def channelInput (c : Config) (ch : Channel) (x : Byte) : Nat := min (x.toNat + channelOffset c ch) 255

/-! ### The sample slot and the filtered level -/

/-- `C10` followed by six zeros: a conversion left-justified in the slot (R78, R150). -/
def leftJustify (c : BitVec 10) : Word := c ++ 0b000000#6

/-- `level8 = RAW[15:8]` (R151). -/
def level8 (raw : Word) : Byte := raw.extractLsb' 8 8

/-- The effective reading `e = STABLE[7:0]` (R155, R161). -/
def effectiveReading (stable : Word) : Byte := stable.extractLsb' 0 8

/-! ### Output ports -/

/-- PHASE as it stands on its 3-bit port (R27, R43). -/
def State.phasePort (s : State) : BitVec 3 := BitVec.ofNat 3 s.phase.val

/-- The output ports of R43: one per register of R20, of its name and width, readable without effect (R34, R56). -/
structure OutPorts where
  raw : Word
  stable : Word
  yr : Byte
  yl : Byte
  sel : BitVec 3
  phase : BitVec 3
  drive : BitVec 5
  mute : Bool
  elapsed : Word
  subsec : Word
  fcnt : Word
  scnt : Word
deriving DecidableEq, Repr

/-- What the environment reads on the output ports between two steps (R34, R43, spec/20_memory.md R59). -/
def State.outPorts (s : State) : OutPorts :=
  { raw := s.raw, stable := s.stable, yr := s.yr, yl := s.yl, sel := s.sel, phase := s.phasePort, drive := s.drive,
    mute := s.mute, elapsed := s.elapsed, subsec := s.subsec, fcnt := s.fcnt, scnt := s.scnt }

end Sys2Proof.Machine
end

