-- ==== Sys2Proof/Machine/Ops.lean ====
section
/-! DEFINITION. The operations shared by the instructions: register writes, output events and the serial frame,
`lookup` (R100), `filter` (R120), the scan step (R130), the counters and the elapsed-time step (R175), the reset input
(R240). The block takes no exception and returns from none (spec/60_exceptions.md R200, R206, R207), so there is no such
operation here. -/

namespace Sys2Proof.Machine

/-! ### Register writes: the one home of every update -/

namespace State

def writeRaw (v : Word) (s : State) : State := { s with raw := v }
def writeStable (v : Word) (s : State) : State := { s with stable := v }
def writeYr (v : Byte) (s : State) : State := { s with yr := v }
def writeYl (v : Byte) (s : State) : State := { s with yl := v }
def writeSel (v : BitVec 3) (s : State) : State := { s with sel := v }
def writePhase (v : Fin 5) (s : State) : State := { s with phase := v }
def writeDrive (v : BitVec 5) (s : State) : State := { s with drive := v }
def writeMute (v : Bool) (s : State) : State := { s with mute := v }
def writeElapsed (v : Word) (s : State) : State := { s with elapsed := v }
def writeSubsec (v : Word) (s : State) : State := { s with subsec := v }
def writeFcnt (v : Word) (s : State) : State := { s with fcnt := v }
def writeScnt (v : Word) (s : State) : State := { s with scnt := v }
def writePins (v : Pins) (s : State) : State := { s with pins := v }

/-- `emit e`: the output event is appended to the trace (R12, R44). -/
def emit (e : OutEvent) (s : State) : State := { s with trace := s.trace ++ [e] }

/-- The environment presents event `e`, and `rest` after it: the input ports take its answers (R40 to R42). -/
def present (e : Event) (rest : List Event) (s : State) : State :=
  { s with contacts := e.contacts, muteIn := e.muteIn, events := rest }

/-- How many free values have been taken. -/
def writeFree (k : Nat) (s : State) : State := { s with freeIdx := k }

end State

/-! ### The Interpolation Engine (spec/40_interpolation.md) -/

/-- The scan from index `i` downward to the greatest index whose input is at most `x` (the `while` of R100). -/
def scanDown (c : Config) (x : Nat) : Nat → Nat
  | 0 => 0
  | i + 1 => if bpIn c (i + 1) > x then scanDown c x i else i + 1

/-- The interpolation term and its base on the segment from `i` to `i + 1`: exact integers, division truncating toward
zero (R100, R101, R107). -/
def interpolate (c : Config) (i x : Nat) : Int :=
  let num : Int := ((bpOut c (i + 1) : Int) - bpOut c i) * ((x : Int) - bpIn c i)
  let den : Int := (bpIn c (i + 1) : Int) - bpIn c i
  bpOut c i + Int.tdiv num den

/-- `lookup(x)` of R100 as an exact integer; the three tests are made in the order of the rule. -/
def lookupInt (c : Config) (x : Nat) : Int :=
  if x ≤ bpIn c 0 then bpOut c 0
  else if x ≥ bpIn c (tableSize c - 1) then bpOut c (tableSize c - 1)
  else
    let i := scanDown c x (tableSize c - 1)
    if x = bpIn c i then bpOut c i else interpolate c i x

/-- `lookup(x)` as the byte it is (R102: the exact result is from 0 to 255). -/
def lookup (c : Config) (x : Nat) : Byte := BitVec.ofInt 8 (lookupInt c x)

/-- The byte a channel gets for input `x`: the lookup of the offset input, in the one table both channels share (R104,
spec/20_memory.md R50). -/
def channelLookup (c : Config) (ch : Channel) (x : Byte) : Byte := lookup c (channelInput c ch x)

/-- The result register of a channel takes `v` (R77, R105). -/
def writeResult (ch : Channel) (v : Byte) (s : State) : State :=
  match ch with
  | .right => s.writeYr v
  | .left => s.writeYl v

/-! ### The Hysteresis Filter (spec/41_hysteresis.md) -/

/-- `filter(raw, stable)` of R120: signed integers, no wrap (R122); a new level is the raw value zero-extended (R121). -/
def filter (raw : Byte) (stable : Word) : Word :=
  let d : Int := (raw.toNat : Int) - stable.toInt
  if -Config.deadband ≤ d ∧ d ≤ Config.deadband then stable else raw.zeroExtend 16

/-! ### The Selector Scanner (spec/42_scanner.md) -/

/-- `onehot5(k)` of R12. -/
def onehot5 (k : Fin 5) : BitVec 5 := 1#5 <<< k.val

/-- `in SENSE`: the environment's answer to the pattern DRIVE holds now (R41, R137). Log 4. -/
def senseLevel (s : State) : Bool := s.contacts &&& s.drive != 0#5

/-- DRIVE takes the one-hot pattern of PHASE. -/
def driveLine (s : State) : State := s.writeDrive (onehot5 s.phase)

/-- SENSE is sampled once; if it is 1 the position is latched, otherwise SEL keeps its value (R133). -/
def latchPosition (s : State) : State :=
  if senseLevel s then s.writeSel (BitVec.ofNat 3 s.phase.val) else s

/-- PHASE names the next line, modulo 5. -/
def advancePhase (s : State) : State := s.writePhase (s.phase + 1)

/-- `scan_step()` of R130: drive, then sense and latch, then advance (R252: never the other order). -/
def scanStep (s : State) : State := advancePhase (latchPosition (driveLine s))

/-! ### Counters (spec/44_timing.md) -/

/-- A 16-bit counter that did not match counts one further. Past its top the spec defines no value: it is the next free
value, number `k` (log 8). -/
def countOn (c : Word) (k : Nat) : Word := if c.toNat + 1 < 65536 then c + 1#16 else Config.freeCount k

/-- How many free values have been taken once `countOn` was used: one more only past the top. -/
def countTaken (c : Word) (k : Nat) : Nat := if c.toNat + 1 < 65536 then k else k + 1

/-- ELAPSED counts up and saturates at 2^EW - 1 (R30, R175). -/
def saturatingNext (e : Word) : Word := if e.toNat < Config.elapsedMax then e + 1#16 else e

/-- `elapsed_step()` of R175. -/
def elapsedStep (s : State) : State :=
  if s.subsec.toNat + 1 = s.cfg.data.secDiv then
    (s.writeSubsec 0#16).writeElapsed (saturatingNext s.elapsed)
  else (s.writeSubsec (countOn s.subsec s.freeIdx)).writeFree (countTaken s.subsec s.freeIdx)

/-! ### Output events and their waveforms (spec/43_serial_pipeline.md R152, spec/60_exceptions.md R220 to R222) -/

/-- The bits of a byte, most significant first. -/
def msbFirst (b : Byte) : List Bool := [7, 6, 5, 4, 3, 2, 1, 0].map b.getLsbD

/-- The sixteen data bits of `Frame(r, l)` in wire order (R152). -/
def wireBits (r l : Byte) : List Bool := msbFirst r ++ msbFirst l

/-- One clock pulse with data bit `b`: the falling edge puts `b` on SDO, the rising edge latches it (R221, R222). -/
def clockPulse (p : Pins) (b : Bool) : List Pins :=
  [{ p with csN := false, sck := false, sdo := b }, { p with csN := false, sck := true, sdo := b }]

/-- The levels of the pins after each edge of `Frame(r, l)`, from the levels `p` before it (R222 (1) to (4)). -/
def frameWaveform (p : Pins) (r l : Byte) : List Pins :=
  [{ p with csN := false, sck := true }]
    ++ (wireBits r l).flatMap (clockPulse p)
    ++ [{ p with csN := true, sck := true, sdo := l.getLsbD 0 }]

/-- The pulse on SAMPLE_TRIG (R44). -/
def triggerPulse (p : Pins) : List Pins := [{ p with sampleTrig := true }, { p with sampleTrig := false }]

/-- The levels a waveform ends with. -/
def settle (p : Pins) (wave : List Pins) : Pins := wave.getLast?.getD p

/-- `emit Frame(YR, YL)`: one whole frame inside the step (R152, R153, R213). -/
def sendFrame (s : State) : State :=
  (s.emit (.frame s.yr s.yl)).writePins (settle s.pins (frameWaveform s.pins s.yr s.yl))

/-- `emit SampleTrig` (R170). -/
def sendTrigger (s : State) : State :=
  (s.emit .sampleTrig).writePins (settle s.pins (triggerPulse s.pins))

/-! ### The reset input -/

/-- What RST does (spec/70_reset_and_hazards.md R240, R241): every register and output to the reset state, the output
trace emptied, the configuration kept. No event of a run is a reset (R240, R242; log 13). What the environment presents
at its ports is not the block's to clear. -/
def State.rst (s : State) : State :=
  { State.resetWith s.cfg s.freeIdx with contacts := s.contacts, muteIn := s.muteIn, events := s.events }

end Sys2Proof.Machine
end

