-- ==== Sys2Proof/Machine/Hysteresis.lean ====
section
/-! DEFINITION. The Hysteresis Filter's operation (spec/41_hysteresis.md). -/

namespace Sys2Proof.Machine

/-- FILT X8: one hysteresis step on STABLE (R121). -/
def execFilt (x : Byte) (s : State) : Host.Outcome State Fault Refusal :=
  .next (s.writeStable (filter x s.stable))

end Sys2Proof.Machine
end

