-- ==== Sys2Proof/Machine/Interpolation.lean ====
section
/-! DEFINITION. The Interpolation Engine's operation (spec/40_interpolation.md). -/

namespace Sys2Proof.Machine

/-- LKUP CH, X8: one table lookup for one channel; the channel's result register and nothing else is written (R105). -/
def execLkup (ch : Channel) (x : Byte) (s : State) : Host.Outcome State Fault Refusal :=
  .next (writeResult ch (channelLookup s.cfg ch x) s)

end Sys2Proof.Machine
end

