-- ==== Sys2Proof/Machine/Pipeline.lean ====
section
/-! DEFINITION. Sample delivery, frame and update pipeline (spec/43_serial_pipeline.md): SMPL, SEND, UPDT, NOP. -/

namespace Sys2Proof.Machine

/-- NOP: nothing is read, written, emitted or sampled (R160). -/
def execNop (s : State) : Host.Outcome State Fault Refusal := .next s

/-- SMPL C10: RAW takes the conversion left-justified, all 16 bits at once (R150, spec/20_memory.md R55). -/
def execSmpl (c : BitVec 10) (s : State) : Host.Outcome State Fault Refusal :=
  .next (s.writeRaw (leftJustify c))

/-- SEND: exactly one frame from YR and YL; no register is written (R153). -/
def execSend (s : State) : Host.Outcome State Fault Refusal := .next (sendFrame s)

/-- The filtering part of UPDT: one indivisible read of RAW, one dead-band step (R155, spec/20_memory.md R55). -/
def updateLevel (s : State) : State := s.writeStable (filter (level8 s.raw) s.stable)

/-- The computing part of UPDT: both result bytes from the effective reading (R155, R159). -/
def updateBytes (s : State) : State :=
  (s.writeYr (channelLookup s.cfg .right (effectiveReading s.stable))).writeYl
    (channelLookup s.cfg .left (effectiveReading s.stable))

/-- UPDT: one pass of the data flow as one atomic step, always with one frame (R155, R157). -/
def execUpdt (s : State) : Host.Outcome State Fault Refusal := .next (sendFrame (updateBytes (updateLevel s)))

end Sys2Proof.Machine
end

