-- ==== Sys2Proof/Machine/Scanner.lean ====
section
/-! DEFINITION. The Selector Scanner's operation (spec/42_scanner.md). -/

namespace Sys2Proof.Machine

/-- SCAN: one scan step (R131). -/
def execScan (s : State) : Host.Outcome State Fault Refusal := .next (scanStep s)

end Sys2Proof.Machine
end

