-- ==== Sys2Proof/Machine/Flags.lean ====
section
/-! DEFINITION. The flags. MUTE is the only one; no operation sets any other flag as a side effect: there is no carry,
zero, overflow or change flag (spec/10_state.md R25, R29). -/

namespace Sys2Proof.Machine

/-- `mute_sample()` of spec/44_timing.md R174: MUTE takes the level of MUTE_IN, sampled once, with no filter. -/
def muteSample (s : State) : State := s.writeMute s.muteIn

end Sys2Proof.Machine
end

