-- ==== Sys2Proof/Machine/Timing.lean ====
section
/-! DEFINITION. The Periodic Timing Subsystem (spec/44_timing.md): TKF, TKS, SLOW, MUTS, ETCK. -/

namespace Sys2Proof.Machine

/-- `slow_event()` of R173: scan step, then mute sample, then elapsed-time step. -/
def slowEvent (s : State) : State := elapsedStep (muteSample (scanStep s))

/-- MUTS: one mute sample (R176). -/
def execMuts (s : State) : Host.Outcome State Fault Refusal := .next (muteSample s)

/-- ETCK: one elapsed-time step (R177). -/
def execEtck (s : State) : Host.Outcome State Fault Refusal := .next (elapsedStep s)

/-- SLOW: one slow-period event; SCNT is neither read nor written (R173). -/
def execSlow (s : State) : Host.Outcome State Fault Refusal := .next (slowEvent s)

/-- One tick of the fast divider: on a match FCNT returns to 0 and SampleTrig is emitted (R170). -/
def fastTick (s : State) : State :=
  if s.fcnt.toNat + 1 = s.cfg.data.fastDiv then sendTrigger (s.writeFcnt 0#16)
  else (s.writeFcnt (countOn s.fcnt s.freeIdx)).writeFree (countTaken s.fcnt s.freeIdx)

/-- TKF: one tick of the fast divider (R170). -/
def execTkf (s : State) : Host.Outcome State Fault Refusal := .next (fastTick s)

/-- One tick of the slow divider: on a match SCNT returns to 0 and the slow event runs (R171). -/
def slowTick (s : State) : State :=
  if s.scnt.toNat + 1 = s.cfg.data.slowDiv then slowEvent (s.writeScnt 0#16)
  else (s.writeScnt (countOn s.scnt s.freeIdx)).writeFree (countTaken s.scnt s.freeIdx)

/-- TKS: one tick of the slow divider (R171). -/
def execTks (s : State) : Host.Outcome State Fault Refusal := .next (slowTick s)

end Sys2Proof.Machine
end

