-- ==== Sys2Proof/Machine/Dispatch.lean ====
section
/-! DEFINITION. The dispatch: one arm per operation (spec/30_encoding.md R79 (6)). -/

namespace Sys2Proof.Machine

def exec (i : Instr) (s : State) : Host.Outcome State Fault Refusal :=
  match i with
  | .nop => Sys2Proof.Machine.execNop s
  | .lkup ch x => Sys2Proof.Machine.execLkup ch x s
  | .filt x => Sys2Proof.Machine.execFilt x s
  | .scan => Sys2Proof.Machine.execScan s
  | .smpl c => Sys2Proof.Machine.execSmpl c s
  | .updt => Sys2Proof.Machine.execUpdt s
  | .send => Sys2Proof.Machine.execSend s
  | .muts => Sys2Proof.Machine.execMuts s
  | .etck => Sys2Proof.Machine.execEtck s
  | .slow => Sys2Proof.Machine.execSlow s
  | .tkf => Sys2Proof.Machine.execTkf s
  | .tks => Sys2Proof.Machine.execTks s

end Sys2Proof.Machine
end

