-- ==== Sys2Proof/Machine/Step.lean ====
section
/-! DEFINITION. One step: the block takes the next event word the environment presents and performs its operation as
one atomic step (spec/10_state.md R40, spec/20_memory.md R57). -/

namespace Sys2Proof.Machine

/-- A reserved word is refused by name (spec/30_encoding.md R80, R81, spec/93_implementation_defined.md U1). Log 5. -/
def Refusal.ofReserved (w : Word) : Reserved → Refusal
  | .opcode => .reservedOpcode w
  | .mustBeZero => .reservedField w

/-- One step. With no event presented the block is idle and nothing changes (spec/60_exceptions.md R210,
spec/10_state.md R47); idling is not an operation. Log 3. -/
def step (s : State) : Host.Outcome State Fault Refusal :=
  match s.events with
  | [] => .next s
  | e :: rest =>
    match decode e.word with
    | .error r => .refused (Refusal.ofReserved e.word r)
    | .ok i => exec i (s.present e rest)

/-- The table word `w` of `nbits` bits stands at the event port as the next event; the environment's answers and the
later events stay as they are, and are 0 and none where no event was to come (logs 10, 11). -/
def State.withFetchWord (s : State) (nbits w : Nat) : State :=
  match s.events with
  | [] => { s with events := [⟨BitVec.ofNat 16 (w % 2 ^ nbits), 0#5, false⟩] }
  | e :: rest => { s with events := { e with word := BitVec.ofNat 16 (w % 2 ^ nbits) } :: rest }

end Sys2Proof.Machine
end

