-- ==== Sys2Proof/Machine/Assembler.lean ====
section
/-! DEFINITION. The textual form of an event word and the pseudo-operations (spec/30_encoding.md R84, R85). -/

namespace Sys2Proof.Machine

/-- A line of a listing: a mnemonic of R84 or a pseudo-operation of R85, with its operands as written. -/
inductive AsmLine where
  | nop
  /-- `LKUP R, x` or `LKUP L, x`. -/
  | lkup (ch : Channel) (x : Nat)
  | filt (x : Nat)
  | scan
  | smpl (c : Nat)
  | updt
  | send
  | muts
  | etck
  | slow
  | tkf
  | tks
  /-- `SMPL8 v` stands for `SMPL v*4`. -/
  | smpl8 (v : Nat)
  /-- `LKR x` stands for `LKUP R, x`. -/
  | lkr (x : Nat)
  /-- `LKL x` stands for `LKUP L, x`. -/
  | lkl (x : Nat)
  /-- `TKF*k`. -/
  | tkfTimes (k : Nat)
  /-- `TKS*k`. -/
  | tksTimes (k : Nat)
  /-- `SLOW*k`. -/
  | slowTimes (k : Nat)
  /-- `SCAN*k`. -/
  | scanTimes (k : Nat)
  /-- `ETCK*k`. -/
  | etckTimes (k : Nat)
deriving DecidableEq, Repr

/-- The operand ranges of R84 and R85: a byte operand is 0 to 255, a conversion 0 to 1023. -/
def AsmLine.wf : AsmLine → Bool
  | .lkup _ x => decide (x ≤ 255)
  | .filt x => decide (x ≤ 255)
  | .smpl c => decide (c ≤ 1023)
  | .smpl8 v => decide (v ≤ 255)
  | .lkr x => decide (x ≤ 255)
  | .lkl x => decide (x ≤ 255)
  | .nop => true
  | .scan => true
  | .updt => true
  | .send => true
  | .muts => true
  | .etck => true
  | .slow => true
  | .tkf => true
  | .tks => true
  | .tkfTimes _ => true
  | .tksTimes _ => true
  | .slowTimes _ => true
  | .scanTimes _ => true
  | .etckTimes _ => true

/-- The operations a well-formed line stands for (R85: each repetition is an event word of its own). -/
def AsmLine.expand : AsmLine → List Instr
  | .nop => [.nop]
  | .lkup ch x => [.lkup ch (BitVec.ofNat 8 x)]
  | .filt x => [.filt (BitVec.ofNat 8 x)]
  | .scan => [.scan]
  | .smpl c => [.smpl (BitVec.ofNat 10 c)]
  | .updt => [.updt]
  | .send => [.send]
  | .muts => [.muts]
  | .etck => [.etck]
  | .slow => [.slow]
  | .tkf => [.tkf]
  | .tks => [.tks]
  | .smpl8 v => [.smpl (BitVec.ofNat 10 (v * 4))]
  | .lkr x => [.lkup .right (BitVec.ofNat 8 x)]
  | .lkl x => [.lkup .left (BitVec.ofNat 8 x)]
  | .tkfTimes k => List.replicate k .tkf
  | .tksTimes k => List.replicate k .tks
  | .slowTimes k => List.replicate k .slow
  | .scanTimes k => List.replicate k .scan
  | .etckTimes k => List.replicate k .etck

/-- The event words of a line; an ill-formed line assembles to nothing. -/
def AsmLine.assemble (l : AsmLine) : Option (List Word) :=
  if l.wf then some (l.expand.map encode) else none

/-- A channel as it is written (R84). -/
def channelLetter : Channel → String
  | .right => "R"
  | .left => "L"

/-- The textual form of an operation, operands in decimal (R84). Log 20. -/
def asmText : Instr → String
  | .lkup ch x => "LKUP " ++ channelLetter ch ++ ", " ++ toString x.toNat
  | .filt x => "FILT " ++ toString x.toNat
  | .smpl c => "SMPL " ++ toString c.toNat
  | .nop => "NOP"
  | .scan => "SCAN"
  | .updt => "UPDT"
  | .send => "SEND"
  | .muts => "MUTS"
  | .etck => "ETCK"
  | .slow => "SLOW"
  | .tkf => "TKF"
  | .tks => "TKS"

end Sys2Proof.Machine
end

