-- ==== Sys2Proof/Safety.lean ====
section
/-! DEFINITION. What a safe run is, in the terms the statements use: the legal states of spec/10_state.md R35, the runs
the environment may ask for (spec/60_exceptions.md R212, spec/70_reset_and_hazards.md R245 (e)), sequences of operations,
and what the attenuation chip latches from the serial link (spec/60_exceptions.md R221, R222). -/

namespace Sys2Proof.Machine

/-- The legal states: the invariants (a) to (g) of R35, what (e) and (i) say of a state in which no scan step has run
(DEDUCED, log 21), and the link and the trigger at rest between two steps (R222: no pulse outside a frame). -/
structure State.Inv (s : State) : Prop where
  /-- (a) -/
  rawLow : s.raw.extractLsb' 0 6 = 0#6
  /-- (b) -/
  stableRange : 0 ≤ s.stable.toInt ∧ s.stable.toInt ≤ 255
  /-- (c) -/
  selLegal : s.sel.toNat ≤ 4 ∨ s.sel = 7#3
  /-- (e) and (f): the pattern is that of the line before PHASE, or no line has been driven. -/
  driveFollows : s.drive = 0#5 ∨ s.drive = onehot5 (s.phase + 4)
  /-- (e) and (i): with no line driven no scan step has run, so nothing was detected. -/
  undriven : s.drive = 0#5 → s.phase = 0 ∧ s.sel = 7#3
  /-- (g) -/
  subsecBelow : s.subsec.toNat < s.cfg.data.secDiv
  /-- (g) -/
  fcntBelow : s.fcnt.toNat < s.cfg.data.fastDiv
  /-- (g) -/
  scntBelow : s.scnt.toNat < s.cfg.data.slowDiv
  /-- Chip-select released, clock idle high, no trigger pulse. -/
  linkIdle : s.pins.csN = true ∧ s.pins.sck = true ∧ s.pins.sampleTrig = false

/-- Every event still to be presented carries a word that names an operation: R245 (e). -/
def State.PendingLegal (s : State) : Prop := ∀ e ∈ s.events, ∃ i, decode e.word = .ok i

/-- The next `n` events exist and carry the word `w`. -/
def State.NextWords (s : State) (n : Nat) (w : Word) : Prop :=
  n ≤ s.events.length ∧ ∀ e ∈ s.events.take n, e.word = w

/-- `n` steps of the machine, stopping at the first that does not answer a next state (`Host.Core.run` of the machine:
`runSteps_eq_run`). -/
def runSteps : Nat → State → Host.Outcome State Fault Refusal
  | 0, s => .next s
  | n + 1, s =>
    match step s with
    | .next t => runSteps n t
    | .fault r => .fault r
    | .refused r => .refused r

/-- The operations of a list performed one after the other, stopping at the first that does not answer a next state. -/
def execSeq : List Instr → State → Host.Outcome State Fault Refusal
  | [], s => .next s
  | i :: is, s =>
    match exec i s with
    | .next t => execSeq is t
    | .fault r => .fault r
    | .refused r => .refused r

/-- The bits the attenuation chip latches from a waveform: SDO at each rising edge of SCK while CS_N is low (R221). -/
def latchedBits : Pins → List Pins → List Bool
  | _, [] => []
  | p, q :: rest =>
    if p.csN = false ∧ q.csN = false ∧ p.sck = false ∧ q.sck = true then q.sdo :: latchedBits q rest
    else latchedBits q rest

/-- The values SDO takes at the falling (leading) edges of SCK in a waveform (R221). -/
def leadingEdges : Pins → List Pins → List Bool
  | _, [] => []
  | p, q :: rest =>
    if p.sck = true ∧ q.sck = false then q.sdo :: leadingEdges q rest else leadingEdges q rest

end Sys2Proof.Machine
end

