-- ==== Sys2Proof/Certificates/Slice0/Obligations.lean ====
section
/-! DEFINITION. The statements for the provers. Each docstring names the rules of spec/ it formalises. A statement that
says what an operation leaves unchanged says it as an equation `t = { s with … }`: every field that is not listed,
the configuration with the whole breakpoint table among them, is that of the state before. -/

open Sys2Proof Sys2Proof.Machine

/-! ### Reset and invariants -/

/-- R46: the reset values of the twelve registers, of the pins and of the trace, under every configuration; SDO is
unspecified and nothing is said of it. The configuration is not reset, and STABLE_RESET is read as a signed level. -/
def Obligations.ResetStateHasTheSpecifiedValues : Prop :=
  (∃ c k, State.reset = State.resetWith c k) ∧
  ∀ (c : Config) (k : Nat),
    (State.resetWith c k).outPorts =
      { raw := 0x0000#16, stable := BitVec.ofNat 16 c.data.stableReset, yr := 0x00#8, yl := 0x00#8, sel := 7#3,
        phase := 0#3, drive := 0b00000#5, mute := false, elapsed := 0#16, subsec := 0#16, fcnt := 0#16,
        scnt := 0#16 } ∧
    (State.resetWith c k).stable.toInt = c.data.stableReset ∧
    (State.resetWith c k).pins.csN = true ∧ (State.resetWith c k).pins.sck = true ∧
    (State.resetWith c k).pins.sampleTrig = false ∧
    (State.resetWith c k).trace = [] ∧ (State.resetWith c k).cfg = c

/-- R240, R241: RST puts every register and output in the reset state and empties the trace; it does not touch the
configuration. That the events still to be presented stay is the model's (log 13). -/
def Obligations.ResetInputRestoresTheResetState : Prop :=
  ∀ s : State,
    s.rst.outPorts = (State.resetWith s.cfg 0).outPorts ∧ s.rst.trace = [] ∧
    s.rst.pins.csN = true ∧ s.rst.pins.sck = true ∧ s.rst.pins.sampleTrig = false ∧
    s.rst.cfg = s.cfg ∧ s.rst.events = s.events

/-- R35: the reset state is legal under every configuration, the machine's own among them, whose LEFT_OFFSET is 4 (R8).
The form of R35 (e) and (i) is the model's (log 21). -/
def Obligations.ResetStateIsLegal : Prop :=
  State.reset.Inv ∧ State.reset.cfg.data.leftOffset = 4 ∧ ∀ (c : Config) (k : Nat), (State.resetWith c k).Inv

/-- R35 (a) to (g): every step keeps the invariants. The idle step and the form of (e) and (i) are the model's
(logs 3, 21). -/
def Obligations.StepKeepsLegality : Prop :=
  ∀ s t : State, s.Inv → step s = .next t → t.Inv

/-- R35 (e), (h), (i), R26, R44: ELAPSED never decreases; SEL never returns to the unknown value; a driven pattern is
never released to none; the output trace only grows. -/
def Obligations.StepNeverGoesBack : Prop :=
  ∀ s t : State, step s = .next t →
    s.elapsed.toNat ≤ t.elapsed.toNat ∧ (s.sel ≠ 7#3 → t.sel ≠ 7#3) ∧ (s.drive ≠ 0#5 → t.drive ≠ 0#5) ∧
    ∃ out, t.trace = s.trace ++ out

/-! ### Steps and runs -/

/-- R200: every operation is total, for every operand and every level of the input ports, and no step faults. -/
def Obligations.EveryOperationCompletes : Prop :=
  (∀ (i : Instr) (s : State), ∃ t, exec i s = .next t) ∧
  ∀ (s : State) (r : Fault), step s ≠ .fault r

/-- R40, R57, R79: a step with a legal word at the event port is the decoded operation, performed with that event's
answers at the input ports; with no event nothing happens (log 3). -/
def Obligations.StepPerformsTheDecodedOperation : Prop :=
  ∀ s : State,
    (∀ e rest i, s.events = e :: rest → decode e.word = .ok i →
      step s = exec i { s with contacts := e.contacts, muteIn := e.muteIn, events := rest }) ∧
    (s.events = [] → step s = .next s)

/-- R80, R81 with U1: a step is refused exactly on the reserved words, by the name of the reason; on every other word
it goes on. The conditions are on the word as a number. -/
def Obligations.StepRefusesExactlyTheReservedWords : Prop :=
  ∀ (s : State) (e : Event) (rest : List Event), s.events = e :: rest →
    (0xC000 ≤ e.word.toNat → step s = .refused (.reservedOpcode e.word)) ∧
    (e.word.toNat < 0xC000 → e.word.toNat / 4096 ∉ [1, 2, 4] → e.word.toNat % 4096 ≠ 0 →
      step s = .refused (.reservedField e.word)) ∧
    (e.word.toNat / 4096 = 1 → 512 ≤ e.word.toNat % 4096 → step s = .refused (.reservedField e.word)) ∧
    (e.word.toNat / 4096 = 2 → 256 ≤ e.word.toNat % 4096 → step s = .refused (.reservedField e.word)) ∧
    (e.word.toNat / 4096 = 4 → 1024 ≤ e.word.toNat % 4096 → step s = .refused (.reservedField e.word)) ∧
    (e.word.toNat < 0xC000 → e.word.toNat / 4096 ∉ [1, 2, 4] → e.word.toNat % 4096 = 0 → ∃ t, step s = .next t) ∧
    (e.word.toNat / 4096 = 1 → e.word.toNat % 4096 < 512 → ∃ t, step s = .next t) ∧
    (e.word.toNat / 4096 = 2 → e.word.toNat % 4096 < 256 → ∃ t, step s = .next t) ∧
    (e.word.toNat / 4096 = 4 → e.word.toNat % 4096 < 1024 → ∃ t, step s = .next t)

/-- R212: a run of well-formed event words never stops, whatever their order and the sampled levels; each step consumes
one event; legality is kept along it. -/
def Obligations.RunsOfLegalWordsNeverStop : Prop :=
  ∀ (n : Nat) (s : State), s.PendingLegal →
    ∃ t, runSteps n s = .next t ∧ t.events = s.events.drop n ∧ t.PendingLegal ∧ (s.Inv → t.Inv)

/-! ### Encoding -/

/-- R74 to R79: no bit of an operation is lost: its word decodes to it, for every operation and every operand. -/
def Obligations.DecodeOfEncodeIsTheOperation : Prop :=
  ∀ i : Instr, decode (encode i) = .ok i ∧ decodeTableWord 16 (encode i).toNat = some i

/-- R79: a legal word has one meaning and no other word has it: the word is the encoding of what it decodes to. -/
def Obligations.LegalWordIsTheEncodingOfItsOperation : Prop :=
  ∀ (w : Word) (i : Instr), decode w = .ok i → encode i = w

/-- R74: a word requests the operation of a row exactly when it matches the row under its mask, a word matches at most
one row, and a word that matches none is reserved. -/
def Obligations.DecoderAgreesWithTheOpcodeMap : Prop :=
  ∀ w : Word,
    (∀ r ∈ opcodeRows, r.requestedBy w = true ↔ ∃ i, decode w = .ok i ∧ i.mnemonic = r.mnemonic) ∧
    (∀ r ∈ opcodeRows, ∀ q ∈ opcodeRows, r.requestedBy w = true → q.requestedBy w = true → r = q) ∧
    ((∀ r ∈ opcodeRows, r.requestedBy w = false) ↔ ∃ why, decode w = .error why)

/-- R84: the word of each operation, with every operand at every value, decodes to it. -/
def Obligations.WrittenWordsDecodeWithTheirOperands : Prop :=
  decode 0x0000#16 = .ok .nop ∧ decode 0x3000#16 = .ok .scan ∧ decode 0x5000#16 = .ok .updt ∧
  decode 0x6000#16 = .ok .send ∧ decode 0x7000#16 = .ok .muts ∧ decode 0x8000#16 = .ok .etck ∧
  decode 0x9000#16 = .ok .slow ∧ decode 0xA000#16 = .ok .tkf ∧ decode 0xB000#16 = .ok .tks ∧
  (∀ x : Byte,
    decode (BitVec.ofNat 16 (0x1000 + x.toNat)) = .ok (.lkup .right x) ∧
    decode (BitVec.ofNat 16 (0x1100 + x.toNat)) = .ok (.lkup .left x) ∧
    decode (BitVec.ofNat 16 (0x2000 + x.toNat)) = .ok (.filt x)) ∧
  ∀ c : BitVec 10, decode (BitVec.ofNat 16 (0x4000 + c.toNat)) = .ok (.smpl c)

/-- Words of every family and reserved words (spec/95_test_vectors.md 3.1), written out bit by bit. -/
def Obligations.SampleWordsDecodeAsWritten : Prop :=
  decode 0b0001000011001100#16 = .ok (.lkup .right 204) ∧ decode 0b0001000111001100#16 = .ok (.lkup .left 204) ∧
  decode 0b0010000000110011#16 = .ok (.filt 51) ∧ decode 0b0011000000000000#16 = .ok .scan ∧
  decode 0b0100001100110000#16 = .ok (.smpl 816) ∧ decode 0b1010000000000000#16 = .ok .tkf ∧
  decode 0b0001001000000000#16 = .error .mustBeZero ∧ decode 0b0010000100110011#16 = .error .mustBeZero ∧
  decode 0b0100010000000000#16 = .error .mustBeZero ∧ decode 0b1100000000000000#16 = .error .opcode

/-- R85: the pseudo-operations and their expansions. -/
def Obligations.PseudoOperationsExpand : Prop :=
  (∀ v : Nat, v ≤ 255 →
    AsmLine.assemble (.smpl8 v) = AsmLine.assemble (.smpl (v * 4)) ∧
    AsmLine.assemble (.smpl8 v) = some [BitVec.ofNat 16 (0x4000 + v * 4)] ∧
    AsmLine.assemble (.lkr v) = AsmLine.assemble (.lkup .right v) ∧
    AsmLine.assemble (.lkl v) = AsmLine.assemble (.lkup .left v) ∧
    ∀ s : State, ∃ t, execSeq (AsmLine.expand (.smpl8 v)) s = .next t ∧ (level8 t.raw).toNat = v ∧
      t.raw.extractLsb' 6 2 = 0#2) ∧
  ∀ k : Nat,
    AsmLine.assemble (.tkfTimes k) = some (List.replicate k 0xA000#16) ∧
    AsmLine.assemble (.tksTimes k) = some (List.replicate k 0xB000#16) ∧
    AsmLine.assemble (.slowTimes k) = some (List.replicate k 0x9000#16) ∧
    AsmLine.assemble (.scanTimes k) = some (List.replicate k 0x3000#16) ∧
    AsmLine.assemble (.etckTimes k) = some (List.replicate k 0x8000#16)

/-! ### The Interpolation Engine -/

/-- R100, R108: what `lookup` returns, without its search: the two clamps, the exact value at the greatest index whose
input is `x`, and otherwise the truncated interpolation on the one segment that holds `x`. -/
def Obligations.LookupClampsMatchesAndInterpolates : Prop :=
  ∀ (c : Config) (x : Nat),
    (x ≤ bpIn c 0 → (lookup c x).toNat = bpOut c 0) ∧
    (bpIn c 0 < x → bpIn c (tableSize c - 1) ≤ x → (lookup c x).toNat = bpOut c (tableSize c - 1)) ∧
    ∀ i, i + 1 < tableSize c →
      (bpIn c 0 < x → bpIn c i = x → x < bpIn c (i + 1) → (lookup c x).toNat = bpOut c i) ∧
      (bpIn c i < x → x < bpIn c (i + 1) →
        ((lookup c x).toNat : Int) =
          bpOut c i + Int.tdiv (((bpOut c (i + 1) : Int) - bpOut c i) * ((x : Int) - bpIn c i))
            ((bpIn c (i + 1) : Int) - bpIn c i))

/-- R102: the scan ends at an index from 0 to n-2 whose segment holds `x`; the exact result is an entry, or lies between
the two entries of that segment and, where they differ, strictly closer to the first than the second is; so it is from
0 to 255 and the byte loses nothing. -/
def Obligations.LookupIsTotalAndFitsAByte : Prop :=
  ∀ (c : Config) (x : Nat),
    (0 ≤ lookupInt c x ∧ lookupInt c x ≤ 255 ∧ ((lookup c x).toNat : Int) = lookupInt c x) ∧
    (bpIn c 0 < x → x < bpIn c (tableSize c - 1) →
      scanDown c x (tableSize c - 1) + 2 ≤ tableSize c ∧
      bpIn c (scanDown c x (tableSize c - 1)) ≤ x ∧ x < bpIn c (scanDown c x (tableSize c - 1) + 1)) ∧
    ((∃ j, j < tableSize c ∧ lookupInt c x = bpOut c j) ∨
      ∃ i, i + 1 < tableSize c ∧ bpIn c i < x ∧ x < bpIn c (i + 1) ∧
        min (bpOut c i : Int) (bpOut c (i + 1)) ≤ lookupInt c x ∧
        lookupInt c x ≤ max (bpOut c i : Int) (bpOut c (i + 1)) ∧
        (bpOut c i ≠ bpOut c (i + 1) →
          |lookupInt c x - bpOut c i| < |(bpOut c (i + 1) : Int) - bpOut c i|))

/-- R101: the ranges of the interpolation term; the product fits 18 signed bits, the quotient is smaller than the
difference of the outputs (where that is not 0, log 19), and 24 / 25 truncates to 0. -/
def Obligations.InterpolationTermStaysInItsRanges : Prop :=
  Int.tdiv 24 25 = 0 ∧
  ∀ (c : Config) (x i : Nat), i + 1 < tableSize c → bpIn c i < x → x < bpIn c (i + 1) →
    let diff : Int := (bpOut c (i + 1) : Int) - bpOut c i
    let num : Int := diff * ((x : Int) - bpIn c i)
    let den : Int := (bpIn c (i + 1) : Int) - bpIn c i
    (1 ≤ (x : Int) - bpIn c i ∧ (x : Int) - bpIn c i ≤ 254) ∧ (2 ≤ den ∧ den ≤ 255) ∧ (x : Int) - bpIn c i < den ∧
    |diff| ≤ 255 ∧ |num| ≤ 64770 ∧ (-(2 ^ 17 : Int) ≤ num ∧ num < 2 ^ 17) ∧ (diff ≠ 0 → |Int.tdiv num den| < |diff|)

/-- R103, last sentence: if the outputs do not decrease along the table, the whole function does not decrease. -/
def Obligations.NonDecreasingTableGivesNonDecreasingLookup : Prop :=
  ∀ c : Config, (∀ i, i + 1 < tableSize c → bpOut c i ≤ bpOut c (i + 1)) →
    ∀ x y : Nat, x ≤ y → (lookup c x).toNat ≤ (lookup c y).toNat

/-- R103 (c): on a segment whose output rises the value is the document's floor formula, and it does not decrease. -/
def Obligations.RisingSegmentFollowsTheFloorFormula : Prop :=
  ∀ (c : Config) (i x : Nat), i + 1 < tableSize c → bpOut c i < bpOut c (i + 1) →
    bpIn c i < x → x < bpIn c (i + 1) →
      (lookup c x).toNat =
        (bpOut c (i + 1) - bpOut c i) * (x - bpIn c i) / (bpIn c (i + 1) - bpIn c i) + bpOut c i ∧
      ∀ y, x ≤ y → y < bpIn c (i + 1) → (lookup c x).toNat ≤ (lookup c y).toNat

/-- R107: on a segment whose output falls the result is the least integer not below the exact line. -/
def Obligations.FallingSegmentRoundsUpTowardItsStart : Prop :=
  ∀ (c : Config) (i x : Nat), i + 1 < tableSize c → bpOut c (i + 1) < bpOut c i →
    bpIn c i < x → x < bpIn c (i + 1) →
      let den : Int := (bpIn c (i + 1) : Int) - bpIn c i
      let line : Int := bpOut c i * den + ((bpOut c (i + 1) : Int) - bpOut c i) * ((x : Int) - bpIn c i)
      line ≤ ((lookup c x).toNat : Int) * den ∧ (((lookup c x).toNat : Int) - 1) * den < line

/-- R106: repeated inputs. -/
def Obligations.RepeatedInputsTakeTheHighestIndex : Prop :=
  ∀ (c : Config) (v : Nat),
    (∀ i, i < tableSize c → bpIn c i = v → bpIn c 0 < v → v < bpIn c (tableSize c - 1) →
      (∀ j, i < j → j < tableSize c → bpIn c j ≠ v) → (lookup c v).toNat = bpOut c i) ∧
    (bpIn c 0 = v → (lookup c v).toNat = bpOut c 0) ∧
    (bpIn c (tableSize c - 1) = v → bpIn c 0 < v → (lookup c v).toNat = bpOut c (tableSize c - 1)) ∧
    ((∀ i, i < tableSize c → bpIn c i = v) → ∀ x,
      (x ≤ v → (lookup c x).toNat = bpOut c 0) ∧
      (v < x → (lookup c x).toNat = bpOut c (tableSize c - 1))) ∧
    (bpIn c 0 < v → v < bpIn c (tableSize c - 1) →
      bpIn c (scanDown c v (tableSize c - 1)) < bpIn c (scanDown c v (tableSize c - 1) + 1))

/-- R104, R105: the words of LKUP; it completes in every state and writes the result register of its channel with the
lookup of the input plus the channel's offset, saturated at 255, and nothing else. -/
def Obligations.LkupWritesTheResultOfItsChannelOnly : Prop :=
  ∀ (x : Byte) (s : State),
    decode (BitVec.ofNat 16 (0x1000 + x.toNat)) = .ok (.lkup .right x) ∧
    decode (BitVec.ofNat 16 (0x1100 + x.toNat)) = .ok (.lkup .left x) ∧
    (∃ t, exec (.lkup .right x) s = .next t ∧ t = { s with yr := t.yr } ∧ t.yr = lookup s.cfg x.toNat) ∧
    ∃ t, exec (.lkup .left x) s = .next t ∧ t = { s with yl := t.yl } ∧
      (x.toNat + s.cfg.data.leftOffset ≤ 255 → t.yl = lookup s.cfg (x.toNat + s.cfg.data.leftOffset)) ∧
      (255 ≤ x.toNat + s.cfg.data.leftOffset → t.yl = lookup s.cfg 255)

/-! ### The Hysteresis Filter -/

/-- R120, R121: a raw value within 1 of the level leaves it; any other is taken; the comparison is on signed integers,
and the value passed on to the lookup by UPDT is the returned one in both cases. The word of FILT; it completes and
writes STABLE only. -/
def Obligations.FilterMovesOnlyOutsideTheDeadBand : Prop :=
  (∀ (raw : Byte) (stable : Word),
    (-1 ≤ (raw.toNat : Int) - stable.toInt ∧ (raw.toNat : Int) - stable.toInt ≤ 1 → filter raw stable = stable) ∧
    (¬(-1 ≤ (raw.toNat : Int) - stable.toInt ∧ (raw.toNat : Int) - stable.toInt ≤ 1) →
      (filter raw stable).toInt = raw.toNat)) ∧
  (∀ raw : Byte, decode (BitVec.ofNat 16 (0x2000 + raw.toNat)) = .ok (.filt raw)) ∧
  (∀ (raw : Byte) (s : State), ∃ t, exec (.filt raw) s = .next t ∧ t = { s with stable := t.stable } ∧
    t.stable = filter raw s.stable) ∧
  ∀ s : State, ∃ t, exec .updt s = .next t ∧ t.stable = filter (s.raw.extractLsb' 8 8) s.stable ∧
    t.yr = lookup s.cfg (t.stable.toNat % 256)

/-- R123, R126: after FILT the level is within 1 of the raw value, a repeated step changes nothing, and the document's
case 49, 50, 51, 52 from 50. -/
def Obligations.FiltEndsWithinOneAndIsIdempotent : Prop :=
  (∀ (raw : Byte) (s t : State), exec (.filt raw) s = .next t →
    (-1 ≤ (raw.toNat : Int) - t.stable.toInt ∧ (raw.toNat : Int) - t.stable.toInt ≤ 1) ∧
    (t.stable ≠ s.stable → 1 < |(raw.toNat : Int) - s.stable.toInt|) ∧
    exec (.filt raw) t = .next t) ∧
  ∀ s : State, s.stable.toInt = 50 →
    execSeq [.filt 49, .filt 50, .filt 51] s = .next s ∧
    ∃ t, execSeq [.filt 49, .filt 50, .filt 51, .filt 52] s = .next t ∧ t.stable.toInt = 52

/-- R122, R124: no decay (a value inside the dead band never moves the level, however often it comes), a move is a jump
of at least 2 to the raw value itself, and the window does not wrap around at 0 or 255. -/
def Obligations.FilterHasNoDecayAndNoWrap : Prop :=
  (∀ (n : Nat) (raw : Byte) (s : State),
    -1 ≤ (raw.toNat : Int) - s.stable.toInt → (raw.toNat : Int) - s.stable.toInt ≤ 1 →
      execSeq (List.replicate n (.filt raw)) s = .next s) ∧
  (∀ (raw : Byte) (s t : State), exec (.filt raw) s = .next t → t.stable ≠ s.stable →
    t.stable.toInt = raw.toNat ∧ 2 ≤ |t.stable.toInt - s.stable.toInt|) ∧
  (∀ raw : Byte, (filter raw 0#16).toInt = if raw.toNat ≤ 1 then 0 else (raw.toNat : Int)) ∧
  ∀ raw : Byte, (filter raw 255#16).toInt = if 254 ≤ raw.toNat then 255 else (raw.toNat : Int)

/-! ### The Selector Scanner -/

/-- R130, R131: the scan step drives exactly line PHASE, samples SENSE with that line driven, latches PHASE if it is 1
and keeps SEL otherwise, and advances PHASE modulo 5; the word of SCAN; it completes in every state and writes nothing
else. -/
def Obligations.ScanDrivesThenSensesThenAdvances : Prop :=
  decode 0x3000#16 = .ok .scan ∧
  ∀ s : State, ∃ t, exec .scan s = .next t ∧
    t = { s with drive := t.drive, sel := t.sel, phase := t.phase } ∧
    (∀ j : Fin 5, t.drive.getLsbD j.val = true ↔ j = s.phase) ∧
    (senseLevel { s with drive := t.drive } = true → t.sel.toNat = s.phase.val) ∧
    (senseLevel { s with drive := t.drive } = false → t.sel = s.sel) ∧
    t.phase.val = (s.phase.val + 1) % 5

/-- R41, R137: a stored answer can be any response of the environment to the line just driven, so a run of events covers
every environment (log 4); a switch at position p is the answer with bit p alone. -/
def Obligations.EveryResponseOfTheSenseLineIsExpressible : Prop :=
  (∀ f : Fin 5 → Bool, ∃ answer : BitVec 5, ∀ s : State, s.contacts = answer →
    senseLevel (driveLine s) = f s.phase) ∧
  ∀ (p : Fin 5) (s : State), s.contacts = onehot5 p →
    senseLevel (driveLine s) = (driveLine s).drive.getLsbD p.val

/-- R132: along any number of consecutive SCAN events, from any state and whatever SENSE answers, the lines are driven
one at a time in the order PHASE, PHASE + 1, … modulo 5, so five drive each line once and the sixth repeats the
first. -/
def Obligations.ConsecutiveScansCycleThroughTheLines : Prop :=
  ∀ (n : Nat) (s : State), s.NextWords (n + 1) 0x3000#16 →
    ∃ t, runSteps (n + 1) s = .next t ∧
      (∀ j : Fin 5, t.drive.getLsbD j.val = true ↔ j.val = (s.phase.val + n) % 5) ∧
      t.phase.val = (s.phase.val + n + 1) % 5

/-- R136, R137: if a switch stands at position p during five or more consecutive SCAN events, SEL is p at their end,
from any state. -/
def Obligations.SwitchPositionIsFoundWithinFiveScans : Prop :=
  ∀ (n : Nat) (p : Fin 5) (s : State), 5 ≤ n → s.NextWords n 0x3000#16 →
    (∀ e ∈ s.events.take n, e.contacts = onehot5 p) →
      ∃ t, runSteps n s = .next t ∧ t.sel.toNat = p.val

/-- R133: along a run of any n steps SEL keeps its value if in every step of them that runs a scan step (SCAN, SLOW, or
a TKS that matches) SENSE answers 0 to the line driven in it, which is line PHASE. The answers to lines that are not
driven, and the answers in steps that do not scan, are free (log 4). -/
def Obligations.PositionIsRetainedWithoutDetection : Prop :=
  ∀ (n : Nat) (s t : State),
    (∀ (k : Nat) (u : State) (e : Event) (rest : List Event), k < n → runSteps k s = .next u → u.events = e :: rest →
      (e.word = 0x3000#16 ∨ e.word = 0x9000#16 ∨ e.word = 0xB000#16 ∧ u.scnt.toNat + 1 = u.cfg.data.slowDiv) →
        e.contacts.getLsbD u.phase.val = false) →
      runSteps n s = .next t → t.sel = s.sel

/-! ### Sample slot, frame and pipeline -/

/-- R78, R150, R151: the conversion is the low ten bits of the word of SMPL; it stands left-justified in RAW, that is
times 64; the level used downstream is the conversion divided by 4. SMPL completes and writes nothing else. -/
def Obligations.SmplLeftJustifiesTheConversion : Prop :=
  (∀ (w : Word) (c : BitVec 10), decode w = .ok (.smpl c) → c.toNat = w.toNat % 1024) ∧
  (∀ c : BitVec 10, decode (BitVec.ofNat 16 (0x4000 + c.toNat)) = .ok (.smpl c)) ∧
  ∀ (c : BitVec 10) (s : State), ∃ t, exec (.smpl c) s = .next t ∧ t = { s with raw := t.raw } ∧
    t.raw.toNat = c.toNat * 64 ∧ t.raw.extractLsb' 6 10 = c ∧ t.raw.extractLsb' 0 6 = 0#6 ∧
    level8 t.raw = c.extractLsb' 2 8 ∧ (level8 t.raw).toNat = c.toNat / 4

/-- R153: the word of SEND; it completes, emits exactly one Frame(YR, YL) and writes no register; a second SEND sends
the same frame. -/
def Obligations.SendEmitsOneFrameOfTheResultBytes : Prop :=
  decode 0x6000#16 = .ok .send ∧
  ∀ s : State, ∃ t, exec .send s = .next t ∧ t = { s with trace := t.trace, pins := t.pins } ∧
    t.trace = s.trace ++ [.frame s.yr s.yl] ∧
    exec .send t = .next { t with trace := t.trace ++ [.frame s.yr s.yl] }

/-- R222 (4): after the frame of SEND or UPDT chip-select is released, the clock is high, and SDO keeps the last bit,
which has no meaning to the chip (log 14); the trigger pin does not move. -/
def Obligations.FrameLeavesTheLinkIdle : Prop :=
  ∀ (i : Instr) (s t : State), i = .send ∨ i = .updt → exec i s = .next t →
    t.pins = { s.pins with csN := true, sck := true, sdo := t.yl.getLsbD 0 } ∧
    (frameWaveform s.pins t.yr t.yl).getLast? = some t.pins

/-- R222, R152: the waveform of a frame from the idle link: chip-select falls first with the clock high; sixteen pulses;
the chip latches the right byte then the left, each most significant bit first; chip-select is low up to the last edge,
which raises it with the clock high. The clause on the leading edges (SDO takes each data bit at the falling edge) rests
on R221's general knowledge, and that SDO keeps its last bit after the last edge is the model's too: both are log 14. -/
def Obligations.FrameWaveformDeliversRightThenLeft : Prop :=
  ∀ (p : Pins) (r l : Byte), p.csN = true → p.sck = true →
    let bits := [r.getLsbD 7, r.getLsbD 6, r.getLsbD 5, r.getLsbD 4, r.getLsbD 3, r.getLsbD 2, r.getLsbD 1, r.getLsbD 0,
      l.getLsbD 7, l.getLsbD 6, l.getLsbD 5, l.getLsbD 4, l.getLsbD 3, l.getLsbD 2, l.getLsbD 1, l.getLsbD 0]
    latchedBits p (frameWaveform p r l) = bits ∧ leadingEdges p (frameWaveform p r l) = bits ∧
    (frameWaveform p r l).head? = some { p with csN := false } ∧
    (∀ q ∈ (frameWaveform p r l).dropLast, q.csN = false) ∧
    (frameWaveform p r l).dropLast.getLast? = some { p with csN := false, sck := true, sdo := l.getLsbD 0 } ∧
    (frameWaveform p r l).getLast? = some { p with csN := true, sck := true, sdo := l.getLsbD 0 } ∧
    ∀ q ∈ frameWaveform p r l, q.sampleTrig = p.sampleTrig

/-- R155: the word of UPDT; it completes in every state; the level is one filter step on RAW[15:8]; both bytes come from
the low byte e of the new level, the left one from e + LEFT_OFFSET saturated at 255; exactly one frame, right byte
first; no other register is written. -/
def Obligations.UpdtRunsTheWholePipeline : Prop :=
  decode 0x5000#16 = .ok .updt ∧
  ∀ s : State, ∃ t, exec .updt s = .next t ∧
    t = { s with stable := t.stable, yr := t.yr, yl := t.yl, trace := t.trace, pins := t.pins } ∧
    t.stable = filter (s.raw.extractLsb' 8 8) s.stable ∧
    t.yr = lookup s.cfg (t.stable.toNat % 256) ∧
    t.yl = lookup s.cfg (min (t.stable.toNat % 256 + s.cfg.data.leftOffset) 255) ∧
    t.trace = s.trace ++ [.frame t.yr t.yl]

/-- R156: UPDT is FILT, LKUP R, LKUP L, SEND in this order, with raw8 read at the start and e after the FILT. -/
def Obligations.UpdtEqualsTheSplitPipeline : Prop :=
  ∀ s : State,
    exec .updt s =
      execSeq [.filt (level8 s.raw), .lkup .right (effectiveReading (filter (level8 s.raw) s.stable)),
        .lkup .left (effectiveReading (filter (level8 s.raw) s.stable)), .send] s

/-- R155, the end-to-end property: a conversion whose level is outside the dead band of STABLE, or equal to STABLE, then
UPDT, sends the lookup of that level and of that level plus the offset, saturated, right byte first. -/
def Obligations.SampleReachesTheFrame : Prop :=
  ∀ (c : BitVec 10) (s : State),
    s.stable.toInt = (c.toNat / 4 : Nat) ∨ 1 < |((c.toNat / 4 : Nat) : Int) - s.stable.toInt| →
      ∃ t, execSeq [.smpl c, .updt] s = .next t ∧
        t.trace = s.trace ++ [.frame (lookup s.cfg (c.toNat / 4))
          (lookup s.cfg (min (c.toNat / 4 + s.cfg.data.leftOffset) 255))]

/-- R157: a repeated UPDT recomputes the same level and bytes and sends the same frame again. -/
def Obligations.RepeatedUpdtSendsTheSameFrameAgain : Prop :=
  ∀ s t : State, exec .updt s = .next t →
    exec .updt t = .next { t with trace := t.trace ++ [.frame t.yr t.yl] }

/-- R158: no operation reads MUTE: with MUTE changed every operation gives the same state but for MUTE, and the
operations that do not sample it leave it as it was. -/
def Obligations.NoOperationReadsMute : Prop :=
  ∀ (i : Instr) (s t : State) (b : Bool), exec i s = .next t →
    ∃ t', exec i { s with mute := b } = .next t' ∧ t' = { t with mute := t'.mute } ∧
      (i ≠ .muts → i ≠ .slow → i ≠ .tks → t.mute = s.mute ∧ t'.mute = b)

/-- R160: NOP leaves everything as it was; 0x0000 is its only word; every other operation changes something in some
state. -/
def Obligations.NopAloneHasNoEffect : Prop :=
  (∀ s : State, exec .nop s = .next s) ∧ (∀ w : Word, decode w = .ok .nop ↔ w = 0x0000#16) ∧
  ∀ i : Instr, i ≠ .nop → ∃ s t, exec i s = .next t ∧ t ≠ s

/-! ### The Periodic Timing Subsystem -/

/-- R170: the word of TKF; it completes in every state; on a match FCNT returns to 0 and one SampleTrig is emitted,
otherwise FCNT counts up by 1 and nothing is emitted; nothing else is written. No other operation reads or writes FCNT,
and TKF depends on no SCNT. (FCNT at 65535: PastItsTopACounterTakesAFreeValue.) -/
def Obligations.TkfCountsAndTriggersOnTheMatch : Prop :=
  decode 0xA000#16 = .ok .tkf ∧
  (∀ s : State, ∃ t, exec .tkf s = .next t ∧
    (s.fcnt.toNat + 1 = s.cfg.data.fastDiv →
      t = { s with fcnt := 0#16, trace := s.trace ++ [.sampleTrig], pins := { s.pins with sampleTrig := false } }) ∧
    (s.fcnt.toNat + 1 ≠ s.cfg.data.fastDiv → s.fcnt.toNat < 65535 →
      t = { s with fcnt := t.fcnt } ∧ t.fcnt.toNat = s.fcnt.toNat + 1) ∧
    ∀ v : Word, exec .tkf { s with scnt := v } = .next { t with scnt := v }) ∧
  ∀ (i : Instr) (s t : State) (v : Word), i ≠ .tkf → exec i s = .next t →
    exec i { s with fcnt := v } = .next { t with fcnt := v }

/-- R180 for TKF, from any legal count: after n TKF events FCNT is (FCNT + n) mod FAST_DIV, exactly
(FCNT + n) / FAST_DIV triggers were emitted, and nothing else moved. -/
def Obligations.FastDividerClosedForm : Prop :=
  ∀ (n : Nat) (s : State), s.fcnt.toNat < s.cfg.data.fastDiv → s.NextWords n 0xA000#16 →
    ∃ t, runSteps n s = .next t ∧
      t.fcnt.toNat = (s.fcnt.toNat + n) % s.cfg.data.fastDiv ∧
      t.trace = s.trace ++ List.replicate ((s.fcnt.toNat + n) / s.cfg.data.fastDiv) .sampleTrig ∧
      t = { s with fcnt := t.fcnt, trace := t.trace, pins := t.pins, contacts := t.contacts, muteIn := t.muteIn,
                   events := s.events.drop n }

/-- R171: the word of TKS; it completes in every state; on a match SCNT returns to 0 and the slow event runs, which is
what SLOW does; otherwise SCNT counts up by 1 and nothing is sampled or driven; TKS depends on no FCNT. (SCNT at 65535:
PastItsTopACounterTakesAFreeValue.) -/
def Obligations.TksCountsAndRunsTheSlowEventOnTheMatch : Prop :=
  decode 0xB000#16 = .ok .tks ∧
  ∀ s : State, ∃ t, exec .tks s = .next t ∧
    (s.scnt.toNat + 1 = s.cfg.data.slowDiv → exec .slow { s with scnt := 0#16 } = .next t) ∧
    (s.scnt.toNat + 1 ≠ s.cfg.data.slowDiv → s.scnt.toNat < 65535 →
      t = { s with scnt := t.scnt } ∧ t.scnt.toNat = s.scnt.toNat + 1) ∧
    ∀ v : Word, exec .tks { s with fcnt := v } = .next { t with fcnt := v }

/-- R180 for TKS, from any legal state: after n TKS events SCNT is (SCNT + n) mod SLOW_DIV, and the slow events run, as
PHASE, SUBSEC and ELAPSED count them, are (SCNT + n) / SLOW_DIV. -/
def Obligations.SlowDividerClosedForm : Prop :=
  ∀ (n : Nat) (s : State), s.scnt.toNat < s.cfg.data.slowDiv → s.subsec.toNat < s.cfg.data.secDiv →
    s.NextWords n 0xB000#16 →
    ∃ t, runSteps n s = .next t ∧
      t.scnt.toNat = (s.scnt.toNat + n) % s.cfg.data.slowDiv ∧
      t.phase.val = (s.phase.val + (s.scnt.toNat + n) / s.cfg.data.slowDiv) % 5 ∧
      t.subsec.toNat = (s.subsec.toNat + (s.scnt.toNat + n) / s.cfg.data.slowDiv) % s.cfg.data.secDiv ∧
      t.elapsed.toNat =
        min (s.elapsed.toNat + (s.subsec.toNat + (s.scnt.toNat + n) / s.cfg.data.slowDiv) / s.cfg.data.secDiv) 65535

/-- R173: the word of SLOW; it completes; it is the scan step, the mute sample and the elapsed-time step, in any order
with the same result; SCNT is neither read nor written, and no event is emitted. -/
def Obligations.SlowIsItsThreePartsInAnyOrder : Prop :=
  decode 0x9000#16 = .ok .slow ∧
  ∀ s : State, ∃ t, exec .slow s = .next t ∧ t.trace = s.trace ∧ t.pins = s.pins ∧ t.scnt = s.scnt ∧
    (∀ v : Word, exec .slow { s with scnt := v } = .next { t with scnt := v }) ∧
    ∀ parts : List Instr, parts.Perm [.scan, .muts, .etck] → execSeq parts s = .next t

/-- R174, R176: the word of MUTS; MUTE becomes the level of MUTE_IN at the sample, whatever it was before, and nothing
else is written. -/
def Obligations.MutsCopiesTheMuteLine : Prop :=
  decode 0x7000#16 = .ok .muts ∧ ∀ s : State, exec .muts s = .next { s with mute := s.muteIn }

/-- R175, R177: the word of ETCK; it completes in every state; on a match SUBSEC returns to 0 and ELAPSED counts up by 1
unless it is at 65535, where it stays; otherwise SUBSEC counts up by 1; nothing else is written. (SUBSEC at 65535:
PastItsTopACounterTakesAFreeValue.) -/
def Obligations.EtckCountsAndSaturates : Prop :=
  decode 0x8000#16 = .ok .etck ∧
  ∀ s : State, ∃ t, exec .etck s = .next t ∧
    (s.subsec.toNat + 1 = s.cfg.data.secDiv →
      t = { s with subsec := 0#16, elapsed := t.elapsed } ∧ t.elapsed.toNat = min (s.elapsed.toNat + 1) 65535) ∧
    (s.subsec.toNat + 1 ≠ s.cfg.data.secDiv → s.subsec.toNat < 65535 →
      t = { s with subsec := t.subsec } ∧ t.subsec.toNat = s.subsec.toNat + 1)

/-- The model's choice (log 8), no rule of the spec: a divider counter at 65535, which no run from reset holds, counts
to a value of which nothing is said; the operation completes and writes nothing else. -/
def Obligations.PastItsTopACounterTakesAFreeValue : Prop :=
  ∀ s : State,
    (s.fcnt.toNat = 65535 → ∃ t, exec .tkf s = .next t ∧ t = { s with fcnt := t.fcnt, freeIdx := s.freeIdx + 1 }) ∧
    (s.scnt.toNat = 65535 → ∃ t, exec .tks s = .next t ∧ t = { s with scnt := t.scnt, freeIdx := s.freeIdx + 1 }) ∧
    (s.subsec.toNat = 65535 → ∃ t, exec .etck s = .next t ∧
      t = { s with subsec := t.subsec, freeIdx := s.freeIdx + 1 })

/-- R179: after m elapsed-time steps SUBSEC is (SUBSEC + m) mod SEC_DIV and ELAPSED has grown by
(SUBSEC + m) / SEC_DIV, saturating at 65535; so SEC_DIV steps from SUBSEC = 0 add exactly 1, and fewer add nothing. -/
def Obligations.ElapsedTimeClosedForm : Prop :=
  ∀ (m : Nat) (s : State), s.subsec.toNat < s.cfg.data.secDiv → s.NextWords m 0x8000#16 →
    ∃ t, runSteps m s = .next t ∧
      t.subsec.toNat = (s.subsec.toNat + m) % s.cfg.data.secDiv ∧
      t.elapsed.toNat = min (s.elapsed.toNat + (s.subsec.toNat + m) / s.cfg.data.secDiv) 65535 ∧
      (s.subsec = 0#16 → s.elapsed.toNat < 65535 →
        (m = s.cfg.data.secDiv → t.elapsed.toNat = s.elapsed.toNat + 1 ∧ t.subsec = 0#16) ∧
        (m < s.cfg.data.secDiv → t.elapsed = s.elapsed))

/-! ### Whole-machine rules -/

/-- R20, R34: each register changes only in the operations that own it; no operation writes the configuration, an input
port or the events still to be presented, or moves a pin without emitting an event. -/
def Obligations.EachRegisterHasItsWriters : Prop :=
  ∀ (i : Instr) (s t : State), exec i s = .next t →
    (t.raw ≠ s.raw → ∃ c, i = .smpl c) ∧
    (t.stable ≠ s.stable → i = .updt ∨ ∃ x, i = .filt x) ∧
    (t.yr ≠ s.yr → i = .updt ∨ ∃ x, i = .lkup .right x) ∧
    (t.yl ≠ s.yl → i = .updt ∨ ∃ x, i = .lkup .left x) ∧
    ((t.sel ≠ s.sel ∨ t.phase ≠ s.phase ∨ t.drive ≠ s.drive) → i ∈ [.scan, .slow, .tks]) ∧
    (t.mute ≠ s.mute → i ∈ [.muts, .slow, .tks]) ∧
    ((t.elapsed ≠ s.elapsed ∨ t.subsec ≠ s.subsec) → i ∈ [.etck, .slow, .tks]) ∧
    (t.fcnt ≠ s.fcnt → i = .tkf) ∧ (t.scnt ≠ s.scnt → i = .tks) ∧
    ((t.trace ≠ s.trace ∨ t.pins ≠ s.pins) → i ∈ [.send, .updt, .tkf]) ∧
    t.cfg = s.cfg ∧ t.contacts = s.contacts ∧ t.muteIn = s.muteIn ∧ t.events = s.events

/-- R51, R52, R241: every step leaves every entry of the table, and every parameter, as it was, and an index from 0 to
n-1 reads an entry. That an index outside the table reads nothing is the model's (log 15): R52 needs no rule for it. -/
def Obligations.NoStepWritesTheTable : Prop :=
  ∀ s t : State, step s = .next t →
    t.cfg = s.cfg ∧ ∀ a : Nat, readIn t.cfg a = readIn s.cfg a ∧ readOut t.cfg a = readOut s.cfg a ∧
      ((readIn t.cfg a).isSome = true ↔ a < tableSize s.cfg) ∧ ((readOut t.cfg a).isSome = true ↔ a < tableSize s.cfg)

/-- R44, R56, R153, R155: an operation emits at most one event; a trigger comes from TKF only, a frame from SEND and
UPDT only, always one there, carrying the bytes of YR and YL after the operation. -/
def Obligations.OutputEventsComeFromTheirOperations : Prop :=
  ∀ (i : Instr) (s t : State), exec i s = .next t → ∃ out : List OutEvent,
    t.trace = s.trace ++ out ∧ out.length ≤ 1 ∧ (.sampleTrig ∈ out → i = .tkf) ∧
    (∀ r l, .frame r l ∈ out → i = .send ∨ i = .updt) ∧
    (i = .send ∨ i = .updt → out = [.frame t.yr t.yl])

/-- R178: the dividers are independent: a tick of each gives one state and one trace in either order. -/
def Obligations.FastAndSlowTicksCommute : Prop :=
  ∀ s : State, s.Inv → execSeq [.tkf, .tks] s = execSeq [.tks, .tkf] s ∧ ∃ t, execSeq [.tkf, .tks] s = .next t

/-- R58: the host's operations (NOP, LKUP, FILT, SEND, UPDT) and those of the other sources. Every pair gives one state
in either order, but for two. With TKF, SEND and UPDT give one state up to the order of the two output events, if there
are two. UPDT with SMPL is the one data flow between sources: everything but what UPDT itself writes is the same. Both
orders always complete. -/
def Obligations.HostOperationsCommuteWithTheOtherSources : Prop :=
  (∀ (h i : Instr) (s : State),
    (h = .nop ∨ h = .send ∨ h = .updt ∨ (∃ x, h = .filt x) ∨ ∃ ch x, h = .lkup ch x) →
    (i ∈ [.scan, .muts, .etck, .slow, .tks] ∨ (i = .tkf ∧ h ≠ .send ∧ h ≠ .updt) ∨ (∃ c, i = .smpl c) ∧ h ≠ .updt) →
      execSeq [h, i] s = execSeq [i, h] s ∧ ∃ t, execSeq [h, i] s = .next t) ∧
  (∀ (h : Instr) (s : State), h = .send ∨ h = .updt →
    ∃ t u, execSeq [h, .tkf] s = .next t ∧ execSeq [.tkf, h] s = .next u ∧ u = { t with trace := u.trace } ∧
      ∃ trig, (trig = [] ∨ trig = [.sampleTrig]) ∧ t.trace = s.trace ++ [.frame t.yr t.yl] ++ trig ∧
        u.trace = s.trace ++ trig ++ [.frame t.yr t.yl]) ∧
  ∀ (c : BitVec 10) (s : State), ∃ t u, execSeq [.updt, .smpl c] s = .next t ∧ execSeq [.smpl c, .updt] s = .next u ∧
    u = { t with stable := u.stable, yr := u.yr, yl := u.yl, trace := u.trace, pins := u.pins } ∧
    u.raw = leftJustify c
end

