-- ==== Sys2Proof/Laws/State.lean ====
section
/-! SUPPORT. One lemma per field of State per update of Machine/Ops.lean, each true by rfl. -/

namespace Sys2Proof.Machine.State

/-! `writeRaw` writes `raw` and nothing else. -/

section
variable (v : Word) (s : State)
@[simp] theorem writeRaw_cfg : (s.writeRaw v).cfg = s.cfg := rfl
@[simp] theorem writeRaw_raw : (s.writeRaw v).raw = v := rfl
@[simp] theorem writeRaw_stable : (s.writeRaw v).stable = s.stable := rfl
@[simp] theorem writeRaw_yr : (s.writeRaw v).yr = s.yr := rfl
@[simp] theorem writeRaw_yl : (s.writeRaw v).yl = s.yl := rfl
@[simp] theorem writeRaw_sel : (s.writeRaw v).sel = s.sel := rfl
@[simp] theorem writeRaw_phase : (s.writeRaw v).phase = s.phase := rfl
@[simp] theorem writeRaw_drive : (s.writeRaw v).drive = s.drive := rfl
@[simp] theorem writeRaw_mute : (s.writeRaw v).mute = s.mute := rfl
@[simp] theorem writeRaw_elapsed : (s.writeRaw v).elapsed = s.elapsed := rfl
@[simp] theorem writeRaw_subsec : (s.writeRaw v).subsec = s.subsec := rfl
@[simp] theorem writeRaw_fcnt : (s.writeRaw v).fcnt = s.fcnt := rfl
@[simp] theorem writeRaw_scnt : (s.writeRaw v).scnt = s.scnt := rfl
@[simp] theorem writeRaw_pins : (s.writeRaw v).pins = s.pins := rfl
@[simp] theorem writeRaw_trace : (s.writeRaw v).trace = s.trace := rfl
@[simp] theorem writeRaw_contacts : (s.writeRaw v).contacts = s.contacts := rfl
@[simp] theorem writeRaw_muteIn : (s.writeRaw v).muteIn = s.muteIn := rfl
@[simp] theorem writeRaw_events : (s.writeRaw v).events = s.events := rfl
@[simp] theorem writeRaw_freeIdx : (s.writeRaw v).freeIdx = s.freeIdx := rfl
end

/-! `writeStable` writes `stable` and nothing else. -/

section
variable (v : Word) (s : State)
@[simp] theorem writeStable_cfg : (s.writeStable v).cfg = s.cfg := rfl
@[simp] theorem writeStable_raw : (s.writeStable v).raw = s.raw := rfl
@[simp] theorem writeStable_stable : (s.writeStable v).stable = v := rfl
@[simp] theorem writeStable_yr : (s.writeStable v).yr = s.yr := rfl
@[simp] theorem writeStable_yl : (s.writeStable v).yl = s.yl := rfl
@[simp] theorem writeStable_sel : (s.writeStable v).sel = s.sel := rfl
@[simp] theorem writeStable_phase : (s.writeStable v).phase = s.phase := rfl
@[simp] theorem writeStable_drive : (s.writeStable v).drive = s.drive := rfl
@[simp] theorem writeStable_mute : (s.writeStable v).mute = s.mute := rfl
@[simp] theorem writeStable_elapsed : (s.writeStable v).elapsed = s.elapsed := rfl
@[simp] theorem writeStable_subsec : (s.writeStable v).subsec = s.subsec := rfl
@[simp] theorem writeStable_fcnt : (s.writeStable v).fcnt = s.fcnt := rfl
@[simp] theorem writeStable_scnt : (s.writeStable v).scnt = s.scnt := rfl
@[simp] theorem writeStable_pins : (s.writeStable v).pins = s.pins := rfl
@[simp] theorem writeStable_trace : (s.writeStable v).trace = s.trace := rfl
@[simp] theorem writeStable_contacts : (s.writeStable v).contacts = s.contacts := rfl
@[simp] theorem writeStable_muteIn : (s.writeStable v).muteIn = s.muteIn := rfl
@[simp] theorem writeStable_events : (s.writeStable v).events = s.events := rfl
@[simp] theorem writeStable_freeIdx : (s.writeStable v).freeIdx = s.freeIdx := rfl
end

/-! `writeYr` writes `yr` and nothing else. -/

section
variable (v : Byte) (s : State)
@[simp] theorem writeYr_cfg : (s.writeYr v).cfg = s.cfg := rfl
@[simp] theorem writeYr_raw : (s.writeYr v).raw = s.raw := rfl
@[simp] theorem writeYr_stable : (s.writeYr v).stable = s.stable := rfl
@[simp] theorem writeYr_yr : (s.writeYr v).yr = v := rfl
@[simp] theorem writeYr_yl : (s.writeYr v).yl = s.yl := rfl
@[simp] theorem writeYr_sel : (s.writeYr v).sel = s.sel := rfl
@[simp] theorem writeYr_phase : (s.writeYr v).phase = s.phase := rfl
@[simp] theorem writeYr_drive : (s.writeYr v).drive = s.drive := rfl
@[simp] theorem writeYr_mute : (s.writeYr v).mute = s.mute := rfl
@[simp] theorem writeYr_elapsed : (s.writeYr v).elapsed = s.elapsed := rfl
@[simp] theorem writeYr_subsec : (s.writeYr v).subsec = s.subsec := rfl
@[simp] theorem writeYr_fcnt : (s.writeYr v).fcnt = s.fcnt := rfl
@[simp] theorem writeYr_scnt : (s.writeYr v).scnt = s.scnt := rfl
@[simp] theorem writeYr_pins : (s.writeYr v).pins = s.pins := rfl
@[simp] theorem writeYr_trace : (s.writeYr v).trace = s.trace := rfl
@[simp] theorem writeYr_contacts : (s.writeYr v).contacts = s.contacts := rfl
@[simp] theorem writeYr_muteIn : (s.writeYr v).muteIn = s.muteIn := rfl
@[simp] theorem writeYr_events : (s.writeYr v).events = s.events := rfl
@[simp] theorem writeYr_freeIdx : (s.writeYr v).freeIdx = s.freeIdx := rfl
end

/-! `writeYl` writes `yl` and nothing else. -/

section
variable (v : Byte) (s : State)
@[simp] theorem writeYl_cfg : (s.writeYl v).cfg = s.cfg := rfl
@[simp] theorem writeYl_raw : (s.writeYl v).raw = s.raw := rfl
@[simp] theorem writeYl_stable : (s.writeYl v).stable = s.stable := rfl
@[simp] theorem writeYl_yr : (s.writeYl v).yr = s.yr := rfl
@[simp] theorem writeYl_yl : (s.writeYl v).yl = v := rfl
@[simp] theorem writeYl_sel : (s.writeYl v).sel = s.sel := rfl
@[simp] theorem writeYl_phase : (s.writeYl v).phase = s.phase := rfl
@[simp] theorem writeYl_drive : (s.writeYl v).drive = s.drive := rfl
@[simp] theorem writeYl_mute : (s.writeYl v).mute = s.mute := rfl
@[simp] theorem writeYl_elapsed : (s.writeYl v).elapsed = s.elapsed := rfl
@[simp] theorem writeYl_subsec : (s.writeYl v).subsec = s.subsec := rfl
@[simp] theorem writeYl_fcnt : (s.writeYl v).fcnt = s.fcnt := rfl
@[simp] theorem writeYl_scnt : (s.writeYl v).scnt = s.scnt := rfl
@[simp] theorem writeYl_pins : (s.writeYl v).pins = s.pins := rfl
@[simp] theorem writeYl_trace : (s.writeYl v).trace = s.trace := rfl
@[simp] theorem writeYl_contacts : (s.writeYl v).contacts = s.contacts := rfl
@[simp] theorem writeYl_muteIn : (s.writeYl v).muteIn = s.muteIn := rfl
@[simp] theorem writeYl_events : (s.writeYl v).events = s.events := rfl
@[simp] theorem writeYl_freeIdx : (s.writeYl v).freeIdx = s.freeIdx := rfl
end

/-! `writeSel` writes `sel` and nothing else. -/

section
variable (v : BitVec 3) (s : State)
@[simp] theorem writeSel_cfg : (s.writeSel v).cfg = s.cfg := rfl
@[simp] theorem writeSel_raw : (s.writeSel v).raw = s.raw := rfl
@[simp] theorem writeSel_stable : (s.writeSel v).stable = s.stable := rfl
@[simp] theorem writeSel_yr : (s.writeSel v).yr = s.yr := rfl
@[simp] theorem writeSel_yl : (s.writeSel v).yl = s.yl := rfl
@[simp] theorem writeSel_sel : (s.writeSel v).sel = v := rfl
@[simp] theorem writeSel_phase : (s.writeSel v).phase = s.phase := rfl
@[simp] theorem writeSel_drive : (s.writeSel v).drive = s.drive := rfl
@[simp] theorem writeSel_mute : (s.writeSel v).mute = s.mute := rfl
@[simp] theorem writeSel_elapsed : (s.writeSel v).elapsed = s.elapsed := rfl
@[simp] theorem writeSel_subsec : (s.writeSel v).subsec = s.subsec := rfl
@[simp] theorem writeSel_fcnt : (s.writeSel v).fcnt = s.fcnt := rfl
@[simp] theorem writeSel_scnt : (s.writeSel v).scnt = s.scnt := rfl
@[simp] theorem writeSel_pins : (s.writeSel v).pins = s.pins := rfl
@[simp] theorem writeSel_trace : (s.writeSel v).trace = s.trace := rfl
@[simp] theorem writeSel_contacts : (s.writeSel v).contacts = s.contacts := rfl
@[simp] theorem writeSel_muteIn : (s.writeSel v).muteIn = s.muteIn := rfl
@[simp] theorem writeSel_events : (s.writeSel v).events = s.events := rfl
@[simp] theorem writeSel_freeIdx : (s.writeSel v).freeIdx = s.freeIdx := rfl
end

/-! `writePhase` writes `phase` and nothing else. -/

section
variable (v : Fin 5) (s : State)
@[simp] theorem writePhase_cfg : (s.writePhase v).cfg = s.cfg := rfl
@[simp] theorem writePhase_raw : (s.writePhase v).raw = s.raw := rfl
@[simp] theorem writePhase_stable : (s.writePhase v).stable = s.stable := rfl
@[simp] theorem writePhase_yr : (s.writePhase v).yr = s.yr := rfl
@[simp] theorem writePhase_yl : (s.writePhase v).yl = s.yl := rfl
@[simp] theorem writePhase_sel : (s.writePhase v).sel = s.sel := rfl
@[simp] theorem writePhase_phase : (s.writePhase v).phase = v := rfl
@[simp] theorem writePhase_drive : (s.writePhase v).drive = s.drive := rfl
@[simp] theorem writePhase_mute : (s.writePhase v).mute = s.mute := rfl
@[simp] theorem writePhase_elapsed : (s.writePhase v).elapsed = s.elapsed := rfl
@[simp] theorem writePhase_subsec : (s.writePhase v).subsec = s.subsec := rfl
@[simp] theorem writePhase_fcnt : (s.writePhase v).fcnt = s.fcnt := rfl
@[simp] theorem writePhase_scnt : (s.writePhase v).scnt = s.scnt := rfl
@[simp] theorem writePhase_pins : (s.writePhase v).pins = s.pins := rfl
@[simp] theorem writePhase_trace : (s.writePhase v).trace = s.trace := rfl
@[simp] theorem writePhase_contacts : (s.writePhase v).contacts = s.contacts := rfl
@[simp] theorem writePhase_muteIn : (s.writePhase v).muteIn = s.muteIn := rfl
@[simp] theorem writePhase_events : (s.writePhase v).events = s.events := rfl
@[simp] theorem writePhase_freeIdx : (s.writePhase v).freeIdx = s.freeIdx := rfl
end

/-! `writeDrive` writes `drive` and nothing else. -/

section
variable (v : BitVec 5) (s : State)
@[simp] theorem writeDrive_cfg : (s.writeDrive v).cfg = s.cfg := rfl
@[simp] theorem writeDrive_raw : (s.writeDrive v).raw = s.raw := rfl
@[simp] theorem writeDrive_stable : (s.writeDrive v).stable = s.stable := rfl
@[simp] theorem writeDrive_yr : (s.writeDrive v).yr = s.yr := rfl
@[simp] theorem writeDrive_yl : (s.writeDrive v).yl = s.yl := rfl
@[simp] theorem writeDrive_sel : (s.writeDrive v).sel = s.sel := rfl
@[simp] theorem writeDrive_phase : (s.writeDrive v).phase = s.phase := rfl
@[simp] theorem writeDrive_drive : (s.writeDrive v).drive = v := rfl
@[simp] theorem writeDrive_mute : (s.writeDrive v).mute = s.mute := rfl
@[simp] theorem writeDrive_elapsed : (s.writeDrive v).elapsed = s.elapsed := rfl
@[simp] theorem writeDrive_subsec : (s.writeDrive v).subsec = s.subsec := rfl
@[simp] theorem writeDrive_fcnt : (s.writeDrive v).fcnt = s.fcnt := rfl
@[simp] theorem writeDrive_scnt : (s.writeDrive v).scnt = s.scnt := rfl
@[simp] theorem writeDrive_pins : (s.writeDrive v).pins = s.pins := rfl
@[simp] theorem writeDrive_trace : (s.writeDrive v).trace = s.trace := rfl
@[simp] theorem writeDrive_contacts : (s.writeDrive v).contacts = s.contacts := rfl
@[simp] theorem writeDrive_muteIn : (s.writeDrive v).muteIn = s.muteIn := rfl
@[simp] theorem writeDrive_events : (s.writeDrive v).events = s.events := rfl
@[simp] theorem writeDrive_freeIdx : (s.writeDrive v).freeIdx = s.freeIdx := rfl
end

/-! `writeMute` writes `mute` and nothing else. -/

section
variable (v : Bool) (s : State)
@[simp] theorem writeMute_cfg : (s.writeMute v).cfg = s.cfg := rfl
@[simp] theorem writeMute_raw : (s.writeMute v).raw = s.raw := rfl
@[simp] theorem writeMute_stable : (s.writeMute v).stable = s.stable := rfl
@[simp] theorem writeMute_yr : (s.writeMute v).yr = s.yr := rfl
@[simp] theorem writeMute_yl : (s.writeMute v).yl = s.yl := rfl
@[simp] theorem writeMute_sel : (s.writeMute v).sel = s.sel := rfl
@[simp] theorem writeMute_phase : (s.writeMute v).phase = s.phase := rfl
@[simp] theorem writeMute_drive : (s.writeMute v).drive = s.drive := rfl
@[simp] theorem writeMute_mute : (s.writeMute v).mute = v := rfl
@[simp] theorem writeMute_elapsed : (s.writeMute v).elapsed = s.elapsed := rfl
@[simp] theorem writeMute_subsec : (s.writeMute v).subsec = s.subsec := rfl
@[simp] theorem writeMute_fcnt : (s.writeMute v).fcnt = s.fcnt := rfl
@[simp] theorem writeMute_scnt : (s.writeMute v).scnt = s.scnt := rfl
@[simp] theorem writeMute_pins : (s.writeMute v).pins = s.pins := rfl
@[simp] theorem writeMute_trace : (s.writeMute v).trace = s.trace := rfl
@[simp] theorem writeMute_contacts : (s.writeMute v).contacts = s.contacts := rfl
@[simp] theorem writeMute_muteIn : (s.writeMute v).muteIn = s.muteIn := rfl
@[simp] theorem writeMute_events : (s.writeMute v).events = s.events := rfl
@[simp] theorem writeMute_freeIdx : (s.writeMute v).freeIdx = s.freeIdx := rfl
end

/-! `writeElapsed` writes `elapsed` and nothing else. -/

section
variable (v : Word) (s : State)
@[simp] theorem writeElapsed_cfg : (s.writeElapsed v).cfg = s.cfg := rfl
@[simp] theorem writeElapsed_raw : (s.writeElapsed v).raw = s.raw := rfl
@[simp] theorem writeElapsed_stable : (s.writeElapsed v).stable = s.stable := rfl
@[simp] theorem writeElapsed_yr : (s.writeElapsed v).yr = s.yr := rfl
@[simp] theorem writeElapsed_yl : (s.writeElapsed v).yl = s.yl := rfl
@[simp] theorem writeElapsed_sel : (s.writeElapsed v).sel = s.sel := rfl
@[simp] theorem writeElapsed_phase : (s.writeElapsed v).phase = s.phase := rfl
@[simp] theorem writeElapsed_drive : (s.writeElapsed v).drive = s.drive := rfl
@[simp] theorem writeElapsed_mute : (s.writeElapsed v).mute = s.mute := rfl
@[simp] theorem writeElapsed_elapsed : (s.writeElapsed v).elapsed = v := rfl
@[simp] theorem writeElapsed_subsec : (s.writeElapsed v).subsec = s.subsec := rfl
@[simp] theorem writeElapsed_fcnt : (s.writeElapsed v).fcnt = s.fcnt := rfl
@[simp] theorem writeElapsed_scnt : (s.writeElapsed v).scnt = s.scnt := rfl
@[simp] theorem writeElapsed_pins : (s.writeElapsed v).pins = s.pins := rfl
@[simp] theorem writeElapsed_trace : (s.writeElapsed v).trace = s.trace := rfl
@[simp] theorem writeElapsed_contacts : (s.writeElapsed v).contacts = s.contacts := rfl
@[simp] theorem writeElapsed_muteIn : (s.writeElapsed v).muteIn = s.muteIn := rfl
@[simp] theorem writeElapsed_events : (s.writeElapsed v).events = s.events := rfl
@[simp] theorem writeElapsed_freeIdx : (s.writeElapsed v).freeIdx = s.freeIdx := rfl
end

/-! `writeSubsec` writes `subsec` and nothing else. -/

section
variable (v : Word) (s : State)
@[simp] theorem writeSubsec_cfg : (s.writeSubsec v).cfg = s.cfg := rfl
@[simp] theorem writeSubsec_raw : (s.writeSubsec v).raw = s.raw := rfl
@[simp] theorem writeSubsec_stable : (s.writeSubsec v).stable = s.stable := rfl
@[simp] theorem writeSubsec_yr : (s.writeSubsec v).yr = s.yr := rfl
@[simp] theorem writeSubsec_yl : (s.writeSubsec v).yl = s.yl := rfl
@[simp] theorem writeSubsec_sel : (s.writeSubsec v).sel = s.sel := rfl
@[simp] theorem writeSubsec_phase : (s.writeSubsec v).phase = s.phase := rfl
@[simp] theorem writeSubsec_drive : (s.writeSubsec v).drive = s.drive := rfl
@[simp] theorem writeSubsec_mute : (s.writeSubsec v).mute = s.mute := rfl
@[simp] theorem writeSubsec_elapsed : (s.writeSubsec v).elapsed = s.elapsed := rfl
@[simp] theorem writeSubsec_subsec : (s.writeSubsec v).subsec = v := rfl
@[simp] theorem writeSubsec_fcnt : (s.writeSubsec v).fcnt = s.fcnt := rfl
@[simp] theorem writeSubsec_scnt : (s.writeSubsec v).scnt = s.scnt := rfl
@[simp] theorem writeSubsec_pins : (s.writeSubsec v).pins = s.pins := rfl
@[simp] theorem writeSubsec_trace : (s.writeSubsec v).trace = s.trace := rfl
@[simp] theorem writeSubsec_contacts : (s.writeSubsec v).contacts = s.contacts := rfl
@[simp] theorem writeSubsec_muteIn : (s.writeSubsec v).muteIn = s.muteIn := rfl
@[simp] theorem writeSubsec_events : (s.writeSubsec v).events = s.events := rfl
@[simp] theorem writeSubsec_freeIdx : (s.writeSubsec v).freeIdx = s.freeIdx := rfl
end

/-! `writeFcnt` writes `fcnt` and nothing else. -/

section
variable (v : Word) (s : State)
@[simp] theorem writeFcnt_cfg : (s.writeFcnt v).cfg = s.cfg := rfl
@[simp] theorem writeFcnt_raw : (s.writeFcnt v).raw = s.raw := rfl
@[simp] theorem writeFcnt_stable : (s.writeFcnt v).stable = s.stable := rfl
@[simp] theorem writeFcnt_yr : (s.writeFcnt v).yr = s.yr := rfl
@[simp] theorem writeFcnt_yl : (s.writeFcnt v).yl = s.yl := rfl
@[simp] theorem writeFcnt_sel : (s.writeFcnt v).sel = s.sel := rfl
@[simp] theorem writeFcnt_phase : (s.writeFcnt v).phase = s.phase := rfl
@[simp] theorem writeFcnt_drive : (s.writeFcnt v).drive = s.drive := rfl
@[simp] theorem writeFcnt_mute : (s.writeFcnt v).mute = s.mute := rfl
@[simp] theorem writeFcnt_elapsed : (s.writeFcnt v).elapsed = s.elapsed := rfl
@[simp] theorem writeFcnt_subsec : (s.writeFcnt v).subsec = s.subsec := rfl
@[simp] theorem writeFcnt_fcnt : (s.writeFcnt v).fcnt = v := rfl
@[simp] theorem writeFcnt_scnt : (s.writeFcnt v).scnt = s.scnt := rfl
@[simp] theorem writeFcnt_pins : (s.writeFcnt v).pins = s.pins := rfl
@[simp] theorem writeFcnt_trace : (s.writeFcnt v).trace = s.trace := rfl
@[simp] theorem writeFcnt_contacts : (s.writeFcnt v).contacts = s.contacts := rfl
@[simp] theorem writeFcnt_muteIn : (s.writeFcnt v).muteIn = s.muteIn := rfl
@[simp] theorem writeFcnt_events : (s.writeFcnt v).events = s.events := rfl
@[simp] theorem writeFcnt_freeIdx : (s.writeFcnt v).freeIdx = s.freeIdx := rfl
end

/-! `writeScnt` writes `scnt` and nothing else. -/

section
variable (v : Word) (s : State)
@[simp] theorem writeScnt_cfg : (s.writeScnt v).cfg = s.cfg := rfl
@[simp] theorem writeScnt_raw : (s.writeScnt v).raw = s.raw := rfl
@[simp] theorem writeScnt_stable : (s.writeScnt v).stable = s.stable := rfl
@[simp] theorem writeScnt_yr : (s.writeScnt v).yr = s.yr := rfl
@[simp] theorem writeScnt_yl : (s.writeScnt v).yl = s.yl := rfl
@[simp] theorem writeScnt_sel : (s.writeScnt v).sel = s.sel := rfl
@[simp] theorem writeScnt_phase : (s.writeScnt v).phase = s.phase := rfl
@[simp] theorem writeScnt_drive : (s.writeScnt v).drive = s.drive := rfl
@[simp] theorem writeScnt_mute : (s.writeScnt v).mute = s.mute := rfl
@[simp] theorem writeScnt_elapsed : (s.writeScnt v).elapsed = s.elapsed := rfl
@[simp] theorem writeScnt_subsec : (s.writeScnt v).subsec = s.subsec := rfl
@[simp] theorem writeScnt_fcnt : (s.writeScnt v).fcnt = s.fcnt := rfl
@[simp] theorem writeScnt_scnt : (s.writeScnt v).scnt = v := rfl
@[simp] theorem writeScnt_pins : (s.writeScnt v).pins = s.pins := rfl
@[simp] theorem writeScnt_trace : (s.writeScnt v).trace = s.trace := rfl
@[simp] theorem writeScnt_contacts : (s.writeScnt v).contacts = s.contacts := rfl
@[simp] theorem writeScnt_muteIn : (s.writeScnt v).muteIn = s.muteIn := rfl
@[simp] theorem writeScnt_events : (s.writeScnt v).events = s.events := rfl
@[simp] theorem writeScnt_freeIdx : (s.writeScnt v).freeIdx = s.freeIdx := rfl
end

/-! `writePins` writes `pins` and nothing else. -/

section
variable (v : Pins) (s : State)
@[simp] theorem writePins_cfg : (s.writePins v).cfg = s.cfg := rfl
@[simp] theorem writePins_raw : (s.writePins v).raw = s.raw := rfl
@[simp] theorem writePins_stable : (s.writePins v).stable = s.stable := rfl
@[simp] theorem writePins_yr : (s.writePins v).yr = s.yr := rfl
@[simp] theorem writePins_yl : (s.writePins v).yl = s.yl := rfl
@[simp] theorem writePins_sel : (s.writePins v).sel = s.sel := rfl
@[simp] theorem writePins_phase : (s.writePins v).phase = s.phase := rfl
@[simp] theorem writePins_drive : (s.writePins v).drive = s.drive := rfl
@[simp] theorem writePins_mute : (s.writePins v).mute = s.mute := rfl
@[simp] theorem writePins_elapsed : (s.writePins v).elapsed = s.elapsed := rfl
@[simp] theorem writePins_subsec : (s.writePins v).subsec = s.subsec := rfl
@[simp] theorem writePins_fcnt : (s.writePins v).fcnt = s.fcnt := rfl
@[simp] theorem writePins_scnt : (s.writePins v).scnt = s.scnt := rfl
@[simp] theorem writePins_pins : (s.writePins v).pins = v := rfl
@[simp] theorem writePins_trace : (s.writePins v).trace = s.trace := rfl
@[simp] theorem writePins_contacts : (s.writePins v).contacts = s.contacts := rfl
@[simp] theorem writePins_muteIn : (s.writePins v).muteIn = s.muteIn := rfl
@[simp] theorem writePins_events : (s.writePins v).events = s.events := rfl
@[simp] theorem writePins_freeIdx : (s.writePins v).freeIdx = s.freeIdx := rfl
end

/-! `emit` appends to the trace and writes nothing else. -/

section
variable (o : OutEvent) (s : State)
@[simp] theorem emit_cfg : (s.emit o).cfg = s.cfg := rfl
@[simp] theorem emit_raw : (s.emit o).raw = s.raw := rfl
@[simp] theorem emit_stable : (s.emit o).stable = s.stable := rfl
@[simp] theorem emit_yr : (s.emit o).yr = s.yr := rfl
@[simp] theorem emit_yl : (s.emit o).yl = s.yl := rfl
@[simp] theorem emit_sel : (s.emit o).sel = s.sel := rfl
@[simp] theorem emit_phase : (s.emit o).phase = s.phase := rfl
@[simp] theorem emit_drive : (s.emit o).drive = s.drive := rfl
@[simp] theorem emit_mute : (s.emit o).mute = s.mute := rfl
@[simp] theorem emit_elapsed : (s.emit o).elapsed = s.elapsed := rfl
@[simp] theorem emit_subsec : (s.emit o).subsec = s.subsec := rfl
@[simp] theorem emit_fcnt : (s.emit o).fcnt = s.fcnt := rfl
@[simp] theorem emit_scnt : (s.emit o).scnt = s.scnt := rfl
@[simp] theorem emit_pins : (s.emit o).pins = s.pins := rfl
@[simp] theorem emit_trace : (s.emit o).trace = s.trace ++ [o] := rfl
@[simp] theorem emit_contacts : (s.emit o).contacts = s.contacts := rfl
@[simp] theorem emit_muteIn : (s.emit o).muteIn = s.muteIn := rfl
@[simp] theorem emit_events : (s.emit o).events = s.events := rfl
@[simp] theorem emit_freeIdx : (s.emit o).freeIdx = s.freeIdx := rfl
end

/-! `present` writes the input ports and the list of events and nothing else. -/

section
variable (e : Event) (rest : List Event) (s : State)
@[simp] theorem present_cfg : (s.present e rest).cfg = s.cfg := rfl
@[simp] theorem present_raw : (s.present e rest).raw = s.raw := rfl
@[simp] theorem present_stable : (s.present e rest).stable = s.stable := rfl
@[simp] theorem present_yr : (s.present e rest).yr = s.yr := rfl
@[simp] theorem present_yl : (s.present e rest).yl = s.yl := rfl
@[simp] theorem present_sel : (s.present e rest).sel = s.sel := rfl
@[simp] theorem present_phase : (s.present e rest).phase = s.phase := rfl
@[simp] theorem present_drive : (s.present e rest).drive = s.drive := rfl
@[simp] theorem present_mute : (s.present e rest).mute = s.mute := rfl
@[simp] theorem present_elapsed : (s.present e rest).elapsed = s.elapsed := rfl
@[simp] theorem present_subsec : (s.present e rest).subsec = s.subsec := rfl
@[simp] theorem present_fcnt : (s.present e rest).fcnt = s.fcnt := rfl
@[simp] theorem present_scnt : (s.present e rest).scnt = s.scnt := rfl
@[simp] theorem present_pins : (s.present e rest).pins = s.pins := rfl
@[simp] theorem present_trace : (s.present e rest).trace = s.trace := rfl
@[simp] theorem present_contacts : (s.present e rest).contacts = e.contacts := rfl
@[simp] theorem present_muteIn : (s.present e rest).muteIn = e.muteIn := rfl
@[simp] theorem present_events : (s.present e rest).events = rest := rfl
@[simp] theorem present_freeIdx : (s.present e rest).freeIdx = s.freeIdx := rfl
end

/-! `writeFree` writes the count of free values and nothing else. -/

section
variable (k : Nat) (s : State)
@[simp] theorem writeFree_cfg : (s.writeFree k).cfg = s.cfg := rfl
@[simp] theorem writeFree_raw : (s.writeFree k).raw = s.raw := rfl
@[simp] theorem writeFree_stable : (s.writeFree k).stable = s.stable := rfl
@[simp] theorem writeFree_yr : (s.writeFree k).yr = s.yr := rfl
@[simp] theorem writeFree_yl : (s.writeFree k).yl = s.yl := rfl
@[simp] theorem writeFree_sel : (s.writeFree k).sel = s.sel := rfl
@[simp] theorem writeFree_phase : (s.writeFree k).phase = s.phase := rfl
@[simp] theorem writeFree_drive : (s.writeFree k).drive = s.drive := rfl
@[simp] theorem writeFree_mute : (s.writeFree k).mute = s.mute := rfl
@[simp] theorem writeFree_elapsed : (s.writeFree k).elapsed = s.elapsed := rfl
@[simp] theorem writeFree_subsec : (s.writeFree k).subsec = s.subsec := rfl
@[simp] theorem writeFree_fcnt : (s.writeFree k).fcnt = s.fcnt := rfl
@[simp] theorem writeFree_scnt : (s.writeFree k).scnt = s.scnt := rfl
@[simp] theorem writeFree_pins : (s.writeFree k).pins = s.pins := rfl
@[simp] theorem writeFree_trace : (s.writeFree k).trace = s.trace := rfl
@[simp] theorem writeFree_contacts : (s.writeFree k).contacts = s.contacts := rfl
@[simp] theorem writeFree_muteIn : (s.writeFree k).muteIn = s.muteIn := rfl
@[simp] theorem writeFree_events : (s.writeFree k).events = s.events := rfl
@[simp] theorem writeFree_freeIdx : (s.writeFree k).freeIdx = k := rfl
end

end Sys2Proof.Machine.State
end

