-- ==== Sys2Proof/Laws/Ops.lean ====
section
/-! SUPPORT. What each shared operation does, once: the table, the lookup's scan, the filter, the scan step, the
counters, the frame. -/

namespace Sys2Proof.Machine

/-! ### The table (R6, R52) -/

theorem tableSize_bounds (c : Config) : 2 ≤ tableSize c ∧ tableSize c ≤ 256 := by
  have h := c.ok
  simp only [ConfigData.wf, ConfigData.tableLengthOk, Bool.and_eq_true, decide_eq_true_eq] at h
  exact ⟨h.1.1.1.1.1.1.1, h.1.1.1.1.1.1.2⟩

theorem divider_bounds (c : Config) :
    (1 ≤ c.data.fastDiv ∧ c.data.fastDiv ≤ 65535) ∧ (1 ≤ c.data.slowDiv ∧ c.data.slowDiv ≤ 65535) ∧
      (1 ≤ c.data.secDiv ∧ c.data.secDiv ≤ 65535) := by
  have h := c.ok
  simp only [ConfigData.wf, ConfigData.dividerOk, Bool.and_eq_true, decide_eq_true_eq] at h
  exact ⟨h.1.1.1.2, h.1.1.2, h.1.2⟩

theorem offset_bounds (c : Config) : c.data.leftOffset ≤ 255 ∧ c.data.stableReset ≤ 255 := by
  have h := c.ok
  simp only [ConfigData.wf, ConfigData.leftOffsetOk, ConfigData.stableResetOk, Bool.and_eq_true,
    decide_eq_true_eq] at h
  exact ⟨h.1.1.1.1.2, h.2⟩

/-- An index reads an entry exactly when it is inside the table (R52). -/
theorem readIn_isSome (c : Config) (i : Nat) : (readIn c i).isSome = decide (i < tableSize c) := by
  unfold readIn tableSize
  rcases Nat.lt_or_ge i c.data.table.length with h | h <;> simp [h]

theorem readOut_isSome (c : Config) (i : Nat) : (readOut c i).isSome = decide (i < tableSize c) := by
  unfold readOut tableSize
  rcases Nat.lt_or_ge i c.data.table.length with h | h <;> simp [h]

theorem bpIn_le (c : Config) (i : Nat) : bpIn c i ≤ 255 := by
  unfold bpIn
  cases readIn c i with
  | none => simp
  | some b => simpa using Nat.le_of_lt_succ b.isLt

theorem bpOut_le (c : Config) (i : Nat) : bpOut c i ≤ 255 := by
  unfold bpOut
  cases readOut c i with
  | none => simp
  | some b => simpa using Nat.le_of_lt_succ b.isLt

/-- Neighbours in a list that passes the check do not decrease. -/
theorem nonDecreasing_get (l : List Breakpoint) (h : ConfigData.nonDecreasing l = true) (i : Nat)
    (hi : i + 1 < l.length) : (l[i]'(by omega)).inp.toNat ≤ (l[i + 1]).inp.toNat := by
  induction l generalizing i with
  | nil => simp at hi
  | cons a t ih =>
    cases t with
    | nil => simp at hi
    | cons b r =>
      simp only [ConfigData.nonDecreasing, Bool.and_eq_true, decide_eq_true_eq] at h
      cases i with
      | zero => simpa using h.1
      | succ k => exact ih h.2 k (by simpa using hi)

/-- BP_IN[i] <= BP_IN[i+1] (R6). -/
theorem bpIn_succ (c : Config) (i : Nat) (hi : i + 1 < tableSize c) : bpIn c i ≤ bpIn c (i + 1) := by
  have h := c.ok
  simp only [ConfigData.wf, ConfigData.tableSorted, Bool.and_eq_true] at h
  have hl : i + 1 < c.data.table.length := hi
  have hl' : i < c.data.table.length := by omega
  have := nonDecreasing_get _ h.1.1.1.1.1.2 i hl
  simpa [bpIn, readIn, hl, hl'] using this

/-- BP_IN is non-decreasing over the whole table. -/
theorem bpIn_mono (c : Config) {i j : Nat} (hij : i ≤ j) (hj : j < tableSize c) : bpIn c i ≤ bpIn c j := by
  induction j with
  | zero => simp [Nat.le_zero.mp hij]
  | succ k ih =>
    rcases Nat.lt_or_ge i (k + 1) with h | h
    · exact (ih (by omega) (by omega)).trans (bpIn_succ c k hj)
    · simp [Nat.le_antisymm hij h]

/-! ### The scan of the lookup (R100, R108) -/

theorem scanDown_le (c : Config) (x i : Nat) : scanDown c x i ≤ i := by
  induction i with
  | zero => simp [scanDown]
  | succ k ih => simp only [scanDown]; split <;> omega

/-- The scan stops at an input at most `x`, if index 0 has one. -/
theorem bpIn_scanDown (c : Config) (x i : Nat) (h0 : bpIn c 0 ≤ x) : bpIn c (scanDown c x i) ≤ x := by
  induction i with
  | zero => simpa [scanDown] using h0
  | succ k ih => simp only [scanDown]; split <;> omega

/-- Every index above the one the scan stops at has an input above `x`: the greatest index is found. -/
theorem lt_bpIn_of_scanDown_lt (c : Config) (x i j : Nat) (h : scanDown c x i < j) (hj : j ≤ i) : x < bpIn c j := by
  induction i with
  | zero => simp [scanDown] at h; omega
  | succ k ih =>
    simp only [scanDown] at h
    split at h
    · rcases Nat.lt_or_ge k j with hk | hk
      · have : j = k + 1 := by omega
        subst this; omega
      · exact ih h hk
    · omega

/-- Only the chosen index matters: any index with BP_IN[i] <= x < BP_IN[i+1] is the one the scan finds (R108). -/
theorem scanDown_eq (c : Config) (x i : Nat) (hi : i + 1 < tableSize c) (hlo : bpIn c i ≤ x)
    (hhi : x < bpIn c (i + 1)) : scanDown c x (tableSize c - 1) = i := by
  have hle := scanDown_le c x (tableSize c - 1)
  have h0 : bpIn c 0 ≤ x := (bpIn_mono c (Nat.zero_le i) (by omega)).trans hlo
  have hat := bpIn_scanDown c x (tableSize c - 1) h0
  rcases Nat.lt_trichotomy (scanDown c x (tableSize c - 1)) i with h | h | h
  · have := lt_bpIn_of_scanDown_lt c x _ i h (by omega); omega
  · exact h
  · have := bpIn_mono c (i := i + 1) (j := scanDown c x (tableSize c - 1)) h (by omega); omega

/-! ### The filter (R120) -/

theorem filter_inside (raw : Byte) (stable : Word)
    (h : -1 ≤ (raw.toNat : Int) - stable.toInt ∧ (raw.toNat : Int) - stable.toInt ≤ 1) : filter raw stable = stable := by
  simp only [filter, Config.deadband]; rw [if_pos h]

theorem filter_outside (raw : Byte) (stable : Word)
    (h : ¬(-1 ≤ (raw.toNat : Int) - stable.toInt ∧ (raw.toNat : Int) - stable.toInt ≤ 1)) :
    filter raw stable = raw.zeroExtend 16 := by
  simp only [filter, Config.deadband]; rw [if_neg h]

/-- A zero-extended byte is its own unsigned number when read as a signed level. -/
@[simp] theorem toInt_zeroExtend (raw : Byte) : (raw.zeroExtend 16).toInt = raw.toNat := by
  have := raw.isLt
  rw [BitVec.toInt_eq_toNat_of_lt] <;> simp [BitVec.toNat_setWidth, Nat.mod_eq_of_lt (show raw.toNat < 65536 by omega)]
  omega

/-! ### The scan step (R130) -/

/-- The answer of the environment is the bit of the line just driven. -/
theorem senseLevel_driveLine (s : State) : senseLevel (driveLine s) = s.contacts.getLsbD s.phase.val := by
  have key : ∀ (k : Fin 5) (c : BitVec 5), (c &&& onehot5 k != 0#5) = c.getLsbD k.val := by decide
  exact key s.phase s.contacts

/-- A scan step as one update of DRIVE, SEL and PHASE. -/
theorem scanStep_eq (s : State) : scanStep s =
    { s with
      drive := onehot5 s.phase
      sel := if s.contacts.getLsbD s.phase.val = true then BitVec.ofNat 3 s.phase.val else s.sel
      phase := s.phase + 1 } := by
  have h := senseLevel_driveLine s
  unfold scanStep latchPosition
  rw [h]
  cases s.contacts.getLsbD s.phase.val <;> rfl

/-! ### Counters and the elapsed-time step (R170, R171, R175) -/

theorem countOn_below (c : Word) (k : Nat) (h : c.toNat < 65535) : countOn c k = c + 1#16 := by
  simp only [countOn]; rw [if_pos (by omega)]

theorem countTaken_below (c : Word) (k : Nat) (h : c.toNat < 65535) : countTaken c k = k := by
  simp only [countTaken]; rw [if_pos (by omega)]

/-- Past its top a counter takes one free value. -/
theorem countTaken_top (c : Word) (k : Nat) (h : c.toNat = 65535) : countTaken c k = k + 1 := by
  simp only [countTaken]; rw [if_neg (by omega)]

theorem toNat_succ (c : Word) (h : c.toNat < 65535) : (c + 1#16).toNat = c.toNat + 1 := by
  simp [BitVec.toNat_add, Nat.mod_eq_of_lt (show c.toNat + 1 < 65536 by omega)]

theorem toNat_saturatingNext (e : Word) : (saturatingNext e).toNat = min (e.toNat + 1) 65535 := by
  have := e.isLt
  unfold saturatingNext
  split
  · rw [toNat_succ e (by simpa using ‹_›)]; simp only [Config.elapsedMax] at *; omega
  · simp only [Config.elapsedMax] at *; omega

/-- The elapsed-time step as one update of SUBSEC, ELAPSED and the count of free values. -/
theorem elapsedStep_eq (s : State) : elapsedStep s =
    { s with
      subsec := if s.subsec.toNat + 1 = s.cfg.data.secDiv then 0#16 else countOn s.subsec s.freeIdx
      elapsed := if s.subsec.toNat + 1 = s.cfg.data.secDiv then saturatingNext s.elapsed else s.elapsed
      freeIdx :=
        if s.subsec.toNat + 1 = s.cfg.data.secDiv then s.freeIdx else countTaken s.subsec s.freeIdx } := by
  unfold elapsedStep; split <;> rfl

/-! ### The frame and the trigger (R152, R153, R170) -/

theorem settle_frameWaveform (p : Pins) (r l : Byte) :
    settle p (frameWaveform p r l) = { p with csN := true, sck := true, sdo := l.getLsbD 0 } := by
  unfold settle frameWaveform
  rw [List.getLast?_concat]
  rfl

theorem settle_triggerPulse (p : Pins) : settle p (triggerPulse p) = { p with sampleTrig := false } := rfl

/-- A frame as one update of the trace and the pins. -/
theorem sendFrame_eq (s : State) : sendFrame s =
    { s with
      trace := s.trace ++ [.frame s.yr s.yl]
      pins := { s.pins with csN := true, sck := true, sdo := s.yl.getLsbD 0 } } := by
  unfold sendFrame; rw [settle_frameWaveform]; rfl

/-- A trigger as one update of the trace and the pins. -/
theorem sendTrigger_eq (s : State) : sendTrigger s =
    { s with trace := s.trace ++ [.sampleTrig], pins := { s.pins with sampleTrig := false } } := rfl

/-! ### The dividers and the slow event (R170, R171, R173) -/

/-- The slow event as one update: the three parts write disjoint registers. -/
theorem slowEvent_eq (s : State) : slowEvent s =
    { s with
      drive := onehot5 s.phase
      sel := if s.contacts.getLsbD s.phase.val = true then BitVec.ofNat 3 s.phase.val else s.sel
      phase := s.phase + 1
      mute := s.muteIn
      subsec := if s.subsec.toNat + 1 = s.cfg.data.secDiv then 0#16 else countOn s.subsec s.freeIdx
      elapsed := if s.subsec.toNat + 1 = s.cfg.data.secDiv then saturatingNext s.elapsed else s.elapsed
      freeIdx :=
        if s.subsec.toNat + 1 = s.cfg.data.secDiv then s.freeIdx else countTaken s.subsec s.freeIdx } := by
  unfold slowEvent muteSample
  rw [elapsedStep_eq, scanStep_eq]
  rfl

/-- A tick of the fast divider as one update. -/
theorem fastTick_eq (s : State) : fastTick s =
    if s.fcnt.toNat + 1 = s.cfg.data.fastDiv then
      { s with fcnt := 0#16, trace := s.trace ++ [.sampleTrig], pins := { s.pins with sampleTrig := false } }
    else { s with fcnt := countOn s.fcnt s.freeIdx, freeIdx := countTaken s.fcnt s.freeIdx } := rfl

/-- A tick of the slow divider as one update. -/
theorem slowTick_eq (s : State) : slowTick s =
    if s.scnt.toNat + 1 = s.cfg.data.slowDiv then slowEvent { s with scnt := 0#16 }
    else { s with scnt := countOn s.scnt s.freeIdx, freeIdx := countTaken s.scnt s.freeIdx } := rfl

/-! ### One step (R57, R79) -/

/-- A step of an idle port. -/
theorem step_idle (s : State) (h : s.events = []) : step s = .next s := by unfold step; rw [h]

/-- Everything a step that goes on can have done. -/
theorem step_next_cases (s t : State) (h : step s = .next t) :
    (s.events = [] ∧ t = s) ∨
      ∃ e rest i, s.events = e :: rest ∧ decode e.word = .ok i ∧ exec i (s.present e rest) = .next t := by
  unfold step at h
  split at h
  · next he => exact .inl ⟨he, by cases h; rfl⟩
  · next e rest he =>
    split at h
    · cases h
    · next i hd => exact .inr ⟨e, rest, i, he, hd, h⟩

end Sys2Proof.Machine
end

