-- ==== Sys2Proof/Laws/PerInstr.lean ====
section
/-! SUPPORT. Laws of the operations as syntax, one lemma per constructor: the two halves of an event word
(spec/30_encoding.md R71). -/

namespace Sys2Proof.Laws.EncodeFields

/-- The opcode field of an operation's word is its opcode, and the twelve bits below it are its operand bits. -/
def Statement (i : Instr) : Prop :=
  opField (encode i) = i.opcode ∧ (encode i).extractLsb' 0 12 = i.operandBits

/-- The two halves of a concatenation. -/
theorem halves (a : BitVec 4) (b : BitVec 12) :
    opField (a ++ b) = a ∧ (a ++ b : BitVec 16).extractLsb' 0 12 = b := by
  unfold opField
  constructor
  · exact BitVec.extractLsb'_append_eq_left
  · exact BitVec.extractLsb'_append_eq_right

theorem nop : Statement (.nop) := halves _ _
theorem lkup (ch : Channel) (x : Byte) : Statement (.lkup ch x) := halves _ _
theorem filt (x : Byte) : Statement (.filt x) := halves _ _
theorem scan : Statement (.scan) := halves _ _
theorem smpl (c : BitVec 10) : Statement (.smpl c) := halves _ _
theorem updt : Statement (.updt) := halves _ _
theorem send : Statement (.send) := halves _ _
theorem muts : Statement (.muts) := halves _ _
theorem etck : Statement (.etck) := halves _ _
theorem slow : Statement (.slow) := halves _ _
theorem tkf : Statement (.tkf) := halves _ _
theorem tks : Statement (.tks) := halves _ _

end Sys2Proof.Laws.EncodeFields
end

