-- ==== Sys2Proof/Laws/Runs.lean ====
section
/-! SUPPORT. Steps and runs: what a step that goes on has done, the events an operation leaves, runs one step at a
time. -/

namespace Sys2Proof.Machine

/-- No operation touches the events still to be presented. -/
theorem exec_events {i : Instr} {s t : State} (h : exec i s = .next t) : t.events = s.events := by
  cases i <;> cases h
  case lkup ch x => cases ch <;> rfl
  case scan => rw [scanStep_eq]
  case etck => rw [elapsedStep_eq]
  case slow => rw [slowEvent_eq]
  case tkf => rw [fastTick_eq]; split <;> rfl
  case tks =>
    rw [slowTick_eq]
    split
    · rw [slowEvent_eq]
    · rfl
  all_goals rfl

/-- One more step at the front of a run. -/
theorem runSteps_succ (n : Nat) (s : State) : runSteps (n + 1) s =
    match step s with
    | .next t => runSteps n t
    | .fault r => .fault r
    | .refused r => .refused r := rfl

/-- One more step of the host's machine, outcome by outcome. -/
theorem coreRun_succ (M : Host.Core) (n : Nat) (s : M.State) :
    (∀ t, M.step s = .next t → M.run (n + 1) s = M.run n t) ∧
    (∀ r, M.step s = .fault r → M.run (n + 1) s = .fault r) ∧
    ∀ r, M.step s = .refused r → M.run (n + 1) s = .refused r := by
  refine ⟨fun t h => ?_, fun r h => ?_, fun r h => ?_⟩ <;> simp only [Host.Core.run, h]

/-- A run of the statements is a run of the host's machine. -/
theorem runSteps_eq_run (n : Nat) (s : State) : runSteps n s = Host.Core.run Sys2Proof.core n s := by
  induction n generalizing s with
  | zero => rfl
  | succ n ih =>
    rw [runSteps_succ]
    cases h : step s with
    | next t => exact (ih t).trans ((coreRun_succ Sys2Proof.core n s).1 t h).symm
    | fault r => exact ((coreRun_succ Sys2Proof.core n s).2.1 r h).symm
    | refused r => exact ((coreRun_succ Sys2Proof.core n s).2.2 r h).symm

end Sys2Proof.Machine
end

