-- ==== Sys2Proof/Tests/Slice0.lean ====
section
/-! SUPPORT. The model's own tests. Every expected value is taken from spec/ (spec/95_test_vectors.md unless a comment
says otherwise). Then one witness for each obligation that has hypotheses: a concrete state and operands that meet them
together, clause by clause at the ends of its ranges. -/

namespace Sys2Proof.Tests

open Sys2Proof Sys2Proof.Machine

/-! ### Configurations of spec/95_test_vectors.md part 1 -/

def tableEx : List Breakpoint :=
  [⟨0, 0⟩, ⟨25, 10⟩, ⟨50, 30⟩, ⟨76, 60⟩, ⟨101, 90⟩, ⟨127, 120⟩] ++
    [⟨152, 150⟩, ⟨178, 180⟩, ⟨203, 210⟩, ⟨229, 235⟩, ⟨255, 255⟩]

def dataEx : ConfigData := { table := tableEx, fastDiv := 3, slowDiv := 2 }

/-- T_EX with the default parameters of the vectors. -/
def configEx : Config := ⟨dataEx, by decide⟩

/-- A corner table with the default parameters. -/
def withTable (t : List Breakpoint) : ConfigData := { dataEx with table := t }

def configC : Config := ⟨withTable [⟨10, 5⟩, ⟨20, 50⟩, ⟨20, 60⟩, ⟨40, 21⟩, ⟨200, 250⟩], by decide⟩
def configId : Config := ⟨withTable [⟨0, 0⟩, ⟨255, 255⟩], by decide⟩
def configInv : Config := ⟨withTable [⟨0, 255⟩, ⟨255, 0⟩], by decide⟩
def configStep : Config := ⟨withTable [⟨0, 0⟩, ⟨255, 1⟩], by decide⟩
def configEq : Config := ⟨withTable [⟨100, 7⟩, ⟨100, 9⟩], by decide⟩
def configDup : Config := ⟨withTable [⟨50, 1⟩, ⟨60, 2⟩, ⟨60, 3⟩, ⟨60, 4⟩, ⟨70, 5⟩], by decide⟩

/-- The reset state of the vectors. -/
def s0 : State := State.resetWith configEx 0

/-- The next state, if there is one. -/
def after (o : Host.Outcome State Fault Refusal) : Option State :=
  match o with
  | .next t => some t
  | .fault _ => none
  | .refused _ => none

/-- The refusal, if there is one. -/
def refusal (o : Host.Outcome State Fault Refusal) : Option Refusal :=
  match o with
  | .next _ => none
  | .fault _ => none
  | .refused r => some r

/-- An event with a switch at position `p` and the mute line at `m`. -/
def ev (w : Word) (p : Fin 5) (m : Bool) : Event := ⟨w, onehot5 p, m⟩

/-- `s0` with `n` equal events to come. -/
def sRun (n : Nat) (e : Event) : State := { s0 with events := List.replicate n e }

/-! ### Well-formedness: one ill-formed term for each check -/

theorem test_ill_formed_table_too_short : (withTable [⟨0, 0⟩]).tableLengthOk = false := by decide

theorem test_ill_formed_table_too_long :
    (withTable (List.replicate 257 ⟨0, 0⟩)).tableLengthOk = false ∧
    (withTable (List.replicate 256 ⟨0, 0⟩)).tableLengthOk = true := by
  simp only [withTable, ConfigData.tableLengthOk, List.length_replicate]
  decide

theorem test_ill_formed_table_decreasing :
    (withTable [⟨10, 0⟩, ⟨20, 0⟩, ⟨19, 0⟩]).tableSorted = false ∧ (withTable [⟨20, 0⟩, ⟨20, 9⟩]).tableSorted = true := by
  decide

theorem test_ill_formed_left_offset :
    ConfigData.leftOffsetOk { dataEx with leftOffset := 256 } = false ∧
    ConfigData.leftOffsetOk { dataEx with leftOffset := 255 } = true := by decide

theorem test_ill_formed_divider :
    ConfigData.dividerOk 0 = false ∧ ConfigData.dividerOk 65536 = false ∧ ConfigData.dividerOk 1 = true ∧
    ConfigData.dividerOk 65535 = true := by decide

theorem test_ill_formed_stable_reset :
    ConfigData.stableResetOk { dataEx with stableReset := 256 } = false ∧
    ConfigData.stableResetOk { dataEx with stableReset := 255 } = true := by decide

/-- Each check counts: a configuration that fails one of them is not well-formed. -/
theorem test_ill_formed_configurations_refused :
    (withTable [⟨0, 0⟩]).wf = false ∧ (withTable [⟨20, 0⟩, ⟨19, 0⟩]).wf = false ∧
    ConfigData.wf { dataEx with leftOffset := 256 } = false ∧ ConfigData.wf { dataEx with fastDiv := 0 } = false ∧
    ConfigData.wf { dataEx with slowDiv := 65536 } = false ∧ ConfigData.wf { dataEx with secDiv := 0 } = false ∧
    ConfigData.wf { dataEx with stableReset := 256 } = false ∧ dataEx.wf = true := by decide

/-- R84: operands outside their ranges assemble to nothing. -/
theorem test_ill_formed_lines :
    AsmLine.assemble (.lkup .right 256) = none ∧ AsmLine.assemble (.lkup .left 256) = none ∧
    AsmLine.assemble (.filt 256) = none ∧ AsmLine.assemble (.smpl 1024) = none ∧
    AsmLine.assemble (.smpl8 256) = none ∧ AsmLine.assemble (.lkr 256) = none ∧ AsmLine.assemble (.lkl 256) = none := by
  decide

/-- Every operation of the type is well-formed (30_encoding.md R72, R73, R75: the operands are the fields). -/
theorem test_operations_well_formed :
    Instr.wf (.lkup .left 255) = true ∧ Instr.wf (.smpl 1023) = true ∧ Instr.wf .nop = true := by decide

/-! ### Decoding: words written out from 30_encoding.md R72 to R75 (opcode, then the fields of the format) -/

theorem test_decode_nop : decode 0b0000000000000000#16 = .ok .nop := by decide
theorem test_decode_lkup_right : decode 0b0001000011001100#16 = .ok (.lkup .right 204) := by decide
theorem test_decode_lkup_left : decode 0b0001000111111111#16 = .ok (.lkup .left 255) := by decide
theorem test_decode_filt : decode 0b0010000000110011#16 = .ok (.filt 51) := by decide
theorem test_decode_scan : decode 0b0011000000000000#16 = .ok .scan := by decide
theorem test_decode_smpl : decode 0b0100001100110000#16 = .ok (.smpl 816) := by decide
theorem test_decode_updt : decode 0b0101000000000000#16 = .ok .updt := by decide
theorem test_decode_send : decode 0b0110000000000000#16 = .ok .send := by decide
theorem test_decode_muts : decode 0b0111000000000000#16 = .ok .muts := by decide
theorem test_decode_etck : decode 0b1000000000000000#16 = .ok .etck := by decide
theorem test_decode_slow : decode 0b1001000000000000#16 = .ok .slow := by decide
theorem test_decode_tkf : decode 0b1010000000000000#16 = .ok .tkf := by decide
theorem test_decode_tks : decode 0b1011000000000000#16 = .ok .tks := by decide

/-- The reserved words of 3.1. -/
theorem test_decode_reserved :
    decode 0x0001#16 = .error .mustBeZero ∧ decode 0x1200#16 = .error .mustBeZero ∧
    decode 0x1ECC#16 = .error .mustBeZero ∧ decode 0x2133#16 = .error .mustBeZero ∧
    decode 0x3001#16 = .error .mustBeZero ∧ decode 0x4400#16 = .error .mustBeZero ∧
    decode 0x5FFF#16 = .error .mustBeZero ∧ decode 0xC000#16 = .error .opcode ∧
    decode 0xFFFF#16 = .error .opcode := by decide

/-- R84: the text of an operation and of its word. -/
theorem test_text : asmText (.lkup .left 204) = "LKUP L, 204" ∧ encode (.lkup .left 204) = 0x11CC#16 := by decide

/-! ### The lookup (2.1, 2.2, 3.2) -/

theorem test_lookup_main_table :
    [0, 1, 12, 24, 25, 49, 126, 204, 254, 255].map (lookup configEx) = [0, 0, 4, 9, 10, 29, 118, 210, 254, 255] := by
  decide

theorem test_lookup_corner_table :
    [9, 10, 11, 15, 19, 20, 21, 30, 39, 40].map (lookup configC) = [5, 5, 9, 27, 45, 60, 59, 41, 23, 21] ∧
    [41, 120, 199, 200, 255].map (lookup configC) = [22, 135, 248, 250, 250] := by decide

theorem test_lookup_two_point_tables :
    [0, 1, 127, 254, 255].map (lookup configId) = [0, 1, 127, 254, 255] ∧
    [0, 1, 127, 128, 254, 255].map (lookup configInv) = [255, 254, 128, 127, 1, 0] ∧
    [0, 1, 254, 255].map (lookup configStep) = [0, 0, 0, 1] := by decide

theorem test_lookup_repeated_inputs :
    [0, 99, 100, 101, 255].map (lookup configEq) = [7, 7, 7, 9, 9] ∧
    [50, 55, 59, 60, 61, 65, 69, 70].map (lookup configDup) = [1, 1, 1, 4, 4, 4, 4, 5] := by decide

/-! ### One step of each operation (part 3) -/

theorem test_nop_changes_nothing : after (exec .nop s0) = some s0 := rfl

theorem test_lkup_left_saturates :
    (after (exec (.lkup .left 252) s0)).map (fun t => (t.yr, t.yl)) = some (0, 255) := by decide

theorem test_lkup_right :
    (after (exec (.lkup .right 204) s0)).map (fun t => (t.yr, t.yl)) = some (210, 0) := by decide

theorem test_filt_inside_the_dead_band :
    (after (exec (.filt 51) { s0 with stable := 50 })).map State.stable = some 50 := by decide

theorem test_filt_outside_the_dead_band :
    (after (exec (.filt 0) { s0 with stable := 255 })).map State.stable = some 0 := by decide

/-- Start (4, 0b01000, 2), SENSE = 1: the line latched is the one driven in this step; PHASE wraps. -/
theorem test_scan_latches_the_line_just_driven :
    (after (exec .scan { s0 with phase := 4, drive := 0b01000, sel := 2, contacts := 0b10000 })).map
      (fun t => (t.phase.val, t.drive, t.sel)) = some (0, 0b10000, 4) := by decide

/-- Start (3, 0b00100, 0), a contact at another line: nothing detected, SEL kept. -/
theorem test_scan_keeps_the_position :
    (after (exec .scan { s0 with phase := 3, drive := 0b00100, sel := 0, contacts := 0b00101 })).map
      (fun t => (t.phase.val, t.drive, t.sel)) = some (4, 0b01000, 0) := by decide

theorem test_smpl : (after (exec (.smpl 816) s0)).map State.raw = some 0xCC00 := by decide

theorem test_smpl_full_scale :
    (after (exec (.smpl 1023) s0)).map (fun t => (t.raw, level8 t.raw)) = some (0xFFC0, 255) := by decide

theorem test_send :
    (after (exec .send { s0 with yr := 210, yl := 214 })).map (fun t => (t.trace, t.pins)) =
      some ([.frame 0xD2 0xD6], ⟨true, true, false, false⟩) := by decide

/-- 3.5: the wire bits of Frame(0xD2, 0xD6). -/
theorem test_wire_bits :
    wireBits 0xD2 0xD6 =
      [true, true, false, true, false, false, true, false] ++ [true, true, false, true, false, true, true, false] := by
  decide

/-- RAW = 0xCC00 with STABLE = 203: the lookups use 203 and 207. -/
theorem test_updt_inside_the_dead_band :
    (after (exec .updt { s0 with raw := 0xCC00, stable := 203 })).map
      (fun t => (t.stable, t.yr, t.yl, t.trace)) = some (203, 210, 213, [.frame 0xD2 0xD5]) := by decide

/-- RAW = 0xFC00 with STABLE = 0: the left offset saturates. -/
theorem test_updt_saturates :
    (after (exec .updt { s0 with raw := 0xFC00 })).map
      (fun t => (t.stable, t.yr, t.yl, t.trace)) = some (252, 252, 255, [.frame 0xFC 0xFF]) := by decide

theorem test_muts :
    (after (exec .muts { s0 with muteIn := true })).map State.mute = some true ∧
    (after (exec .muts { s0 with mute := true })).map State.mute = some false := by decide

/-- SEC_DIV = 50, (SUBSEC, ELAPSED) = (49, 7). -/
theorem test_etck_on_the_match :
    (after (exec .etck { s0 with subsec := 49, elapsed := 7 })).map (fun t => (t.subsec, t.elapsed)) =
      some (0, 8) := by decide

theorem test_etck_saturates :
    (after (exec .etck { s0 with subsec := 49, elapsed := 65535 })).map (fun t => (t.subsec, t.elapsed)) =
      some (0, 65535) := by decide

/-- SLOW [SENSE=1, MUTE_IN=0] from reset. -/
theorem test_slow :
    (after (exec .slow { s0 with contacts := 0b00001 })).map (fun t => (t.drive, t.phase.val, t.sel)) =
      some (0b00001, 1, 0) ∧
    (after (exec .slow { s0 with contacts := 0b00001 })).map (fun t => (t.mute, t.subsec, t.elapsed, t.scnt)) =
      some (false, 1, 0, 0) := by decide

theorem test_tkf_on_the_match :
    (after (exec .tkf { s0 with fcnt := 2 })).map (fun t => (t.fcnt, t.trace)) = some (0, [.sampleTrig]) := by decide

theorem test_tkf_before_the_match :
    (after (exec .tkf { s0 with fcnt := 1 })).map (fun t => (t.fcnt, t.trace)) = some (2, []) := by decide

/-- The first TKS of 3.6 samples nothing, whatever the inputs are. -/
theorem test_tks_before_the_match :
    after (exec .tks { s0 with contacts := 0b11111, muteIn := true }) =
      some { s0 with contacts := 0b11111, muteIn := true, scnt := 1 } := rfl

/-- The second TKS [SENSE=0, MUTE_IN=1] of 3.6. -/
theorem test_tks_on_the_match :
    (after (exec .tks { s0 with scnt := 1, muteIn := true })).map
      (fun t => (t.scnt, t.phase.val, t.drive, t.sel, t.mute, t.subsec)) = some (0, 1, 0b00001, 7, true, 1) := by decide

/-- The word 0x4730 is refused by name (part 4, the last run). -/
theorem test_step_refuses_a_reserved_word :
    refusal (step { s0 with events := [ev 0x4730 0 false] }) = some (.reservedField 0x4730) ∧
    refusal (step { s0 with events := [ev 0xC000 0 false] }) = some (.reservedOpcode 0xC000) := by decide

/-- A step answers SENSE and MUTE_IN with what its own event carries. -/
theorem test_step_takes_the_event :
    (after (step { s0 with events := [ev 0x9000 0 true] })).map (fun t => (t.sel, t.mute, t.events)) =
      some (0, true, []) := by decide

/-- Right after reset a table word presented next is the one the step performs. -/
theorem test_step_runs_the_fetch_word :
    step (State.reset.withFetchWord 16 0x4330) =
      exec (.smpl 816) { State.reset with contacts := 0, muteIn := false, events := [] } := rfl

/-! ### Witnesses: the hypotheses of the obligations can be met -/

theorem reset_inv : s0.Inv := ⟨by decide, by decide, by decide, by decide, by decide, by decide, by decide, by decide,
  by decide⟩

theorem witness_step_keeps_legality :
    (sRun 1 (ev 0x3000 0 false)).Inv ∧ ∃ t, step (sRun 1 (ev 0x3000 0 false)) = .next t ∧ t.drive = 1#5 :=
  ⟨⟨by decide, by decide, by decide, by decide, by decide, by decide, by decide, by decide, by decide⟩, _, rfl,
    by decide⟩

/-- StepNeverGoesBack, the clauses on SEL and DRIVE. -/
theorem witness_step_never_goes_back :
    ∃ s t : State, step s = .next t ∧ s.sel ≠ 7#3 ∧ s.drive ≠ 0#5 ∧ s.elapsed.toNat = 65535 :=
  ⟨{ sRun 1 (ev 0x9000 0 false) with sel := 4, drive := 16, elapsed := 65535, subsec := 49 }, _, rfl, by decide,
    by decide, by decide⟩

theorem witness_step_performs :
    (∃ (s : State) (e : Event) (rest : List Event) (i : Instr), s.events = e :: rest ∧ decode e.word = .ok i) ∧
    ∃ s : State, s.events = [] :=
  ⟨⟨sRun 1 (ev 0x11FF 0 false), ev 0x11FF 0 false, [], .lkup .left 255, rfl, by decide⟩, s0, rfl⟩

/-- StepRefusesExactlyTheReservedWords, the lowest and the highest word of each clause. -/
theorem witness_step_refuses :
    (∀ w : Word, (sRun 1 (ev w 0 false)).events = ev w 0 false :: []) ∧
    (0xC000 ≤ (0xC000#16).toNat ∧ 0xC000 ≤ (0xFFFF#16).toNat) ∧
    (∀ w ∈ [0x0001#16, 0x3001#16, 0x5FFF#16, 0xBFFF#16],
      w.toNat < 0xC000 ∧ w.toNat / 4096 ∉ [1, 2, 4] ∧ w.toNat % 4096 ≠ 0) ∧
    (∀ w ∈ [0x1200#16, 0x1FFF#16], w.toNat / 4096 = 1 ∧ 512 ≤ w.toNat % 4096) ∧
    (∀ w ∈ [0x2100#16, 0x2FFF#16], w.toNat / 4096 = 2 ∧ 256 ≤ w.toNat % 4096) ∧
    (∀ w ∈ [0x4400#16, 0x4FFF#16], w.toNat / 4096 = 4 ∧ 1024 ≤ w.toNat % 4096) ∧
    (∀ w ∈ [0x0000#16, 0x3000#16, 0xB000#16],
      w.toNat < 0xC000 ∧ w.toNat / 4096 ∉ [1, 2, 4] ∧ w.toNat % 4096 = 0) ∧
    (∀ w ∈ [0x1000#16, 0x11FF#16], w.toNat / 4096 = 1 ∧ w.toNat % 4096 < 512) ∧
    (∀ w ∈ [0x2000#16, 0x20FF#16], w.toNat / 4096 = 2 ∧ w.toNat % 4096 < 256) ∧
    ∀ w ∈ [0x4000#16, 0x43FF#16], w.toNat / 4096 = 4 ∧ w.toNat % 4096 < 1024 :=
  ⟨fun _ => rfl, by simp, by simp, by simp, by simp, by simp, by simp, by simp, by simp, by simp⟩

theorem witness_pending_legal : (sRun 3 (ev 0x9000 4 true)).PendingLegal ∧ (sRun 3 (ev 0x9000 4 true)).Inv :=
  ⟨fun e he => ⟨.slow, by rw [List.eq_of_mem_replicate he]; decide⟩, ⟨by decide, by decide, by decide, by decide,
    by decide, by decide, by decide, by decide, by decide⟩⟩

/-- LegalWordIsTheEncodingOfItsOperation and the premise of SmplLeftJustifiesTheConversion. -/
theorem witness_legal_word : decode 0x11FF#16 = .ok (.lkup .left 255) ∧ decode 0x43FF#16 = .ok (.smpl 1023) := by
  decide

theorem witness_opcode_map :
    OpRow.requestedBy ⟨"LKUP", 0x1000, 0xFE00⟩ 0x11FF#16 = true ∧ ⟨"LKUP", 0x1000, 0xFE00⟩ ∈ opcodeRows ∧
    ∀ r ∈ opcodeRows, r.requestedBy 0x1200#16 = false := by decide

theorem witness_pseudo_operands : (0 : Nat) ≤ 255 ∧ (255 : Nat) ≤ 255 := by decide

/-- LookupClampsMatchesAndInterpolates: both clamps at their ends, the exact match at the higher of two equal inputs,
and the ends of a segment. -/
theorem witness_lookup_clauses :
    10 ≤ bpIn configC 0 ∧ (bpIn configC 0 < 200 ∧ bpIn configC (tableSize configC - 1) ≤ 200) ∧
    (2 + 1 < tableSize configC ∧ bpIn configC 0 < 20 ∧ bpIn configC 2 = 20 ∧ 20 < bpIn configC (2 + 1)) ∧
    (bpIn configC 2 < 21 ∧ 21 < bpIn configC (2 + 1)) ∧ bpIn configC 2 < 39 ∧ 39 < bpIn configC (2 + 1) := by decide

/-- LookupIsTotalAndFitsAByte and InterpolationTermStaysInItsRanges: the largest product, its segment rising and
falling. -/
theorem witness_interpolation :
    (bpIn configId 0 < 254 ∧ 254 < bpIn configId (tableSize configId - 1) ∧ 0 + 1 < tableSize configId ∧
      254 < bpIn configId (0 + 1) ∧ bpOut configId 0 ≠ bpOut configId (0 + 1)) ∧
    0 + 1 < tableSize configInv ∧ bpIn configInv 0 < 254 ∧ 254 < bpIn configInv (0 + 1) ∧
    (bpOut configInv (0 + 1) : Int) - bpOut configInv 0 ≠ 0 := by decide

theorem witness_non_decreasing_outputs :
    (∀ i, i + 1 < tableSize configEx → bpOut configEx i ≤ bpOut configEx (i + 1)) ∧ (10 : Nat) ≤ 24 := by
  refine ⟨fun i hi => ?_, by decide⟩
  have h : ∀ i < 10, bpOut configEx i ≤ bpOut configEx (i + 1) := by decide
  exact h i (by have : tableSize configEx = 11 := rfl; omega)

theorem witness_rising_segment :
    8 + 1 < tableSize configEx ∧ bpOut configEx 8 < bpOut configEx (8 + 1) ∧ bpIn configEx 8 < 204 ∧
    204 < bpIn configEx (8 + 1) ∧ (204 : Nat) ≤ 228 ∧ 228 < bpIn configEx (8 + 1) := by decide

theorem witness_falling_segment :
    2 + 1 < tableSize configC ∧ bpOut configC (2 + 1) < bpOut configC 2 ∧
    (bpIn configC 2 < 21 ∧ 21 < bpIn configC (2 + 1)) ∧ bpIn configC 2 < 39 ∧ 39 < bpIn configC (2 + 1) := by decide

/-- RepeatedInputsTakeTheHighestIndex: a repeated input inside, both ends, a table of equal inputs. -/
theorem witness_repeated_inputs :
    (2 < tableSize configC ∧ bpIn configC 2 = 20 ∧ bpIn configC 0 < 20 ∧ 20 < bpIn configC (tableSize configC - 1) ∧
      ∀ j, 2 < j → j < tableSize configC → bpIn configC j ≠ 20) ∧
    bpIn configC 0 = 10 ∧ (bpIn configC (tableSize configC - 1) = 200 ∧ bpIn configC 0 < 200) ∧
    ∀ i, i < tableSize configEq → bpIn configEq i = 100 := by
  refine ⟨⟨by decide, by decide, by decide, by decide, fun j h2 hj => ?_⟩, by decide, by decide, fun i hi => ?_⟩
  · have h : ∀ j < 5, 2 < j → bpIn configC j ≠ 20 := by decide
    exact h j hj h2
  · have h : ∀ i < 2, bpIn configEq i = 100 := by decide
    exact h i hi

/-- LkupWritesTheResultOfItsChannelOnly: 251 + 4 = 255 meets both clauses, which agree there; 252 the second alone. -/
theorem witness_left_offset :
    (251#8).toNat + s0.cfg.data.leftOffset ≤ 255 ∧ 255 ≤ (251#8).toNat + s0.cfg.data.leftOffset ∧
    255 ≤ (252#8).toNat + s0.cfg.data.leftOffset := by decide

/-- FilterMovesOnlyOutsideTheDeadBand and FilterHasNoDecayAndNoWrap: both ends of the window of 50, and beyond it. -/
theorem witness_dead_band :
    (-1 ≤ ((49#8).toNat : Int) - (50#16 : Word).toInt ∧ ((49#8).toNat : Int) - (50#16 : Word).toInt ≤ 1) ∧
    (-1 ≤ ((51#8).toNat : Int) - (50#16 : Word).toInt ∧ ((51#8).toNat : Int) - (50#16 : Word).toInt ≤ 1) ∧
    ¬(-1 ≤ ((52#8).toNat : Int) - (50#16 : Word).toInt ∧ ((52#8).toNat : Int) - (50#16 : Word).toInt ≤ 1) := by decide

/-- FiltEndsWithinOneAndIsIdempotent and FilterHasNoDecayAndNoWrap: a level that moves, and the level 50. -/
theorem witness_filt_moves :
    ∃ s t : State, exec (.filt 52) s = .next t ∧ s.stable.toInt = 50 ∧ t.stable ≠ s.stable :=
  ⟨{ s0 with stable := 50 }, _, rfl, by decide, by decide⟩

/-- ScanDrivesThenSensesThenAdvances: SENSE answers 1, and 0, to the line just driven. -/
theorem witness_scan_sense :
    (∃ t, exec .scan { s0 with contacts := 1#5 } = .next t ∧
      senseLevel { s0 with contacts := 1#5, drive := t.drive } = true) ∧
    ∃ t, exec .scan { s0 with contacts := 30#5 } = .next t ∧
      senseLevel { s0 with contacts := 30#5, drive := t.drive } = false :=
  ⟨⟨_, rfl, by decide⟩, _, rfl, by decide⟩

/-- EveryResponseOfTheSenseLineIsExpressible: a switch at the last position. -/
theorem witness_switch : State.contacts { s0 with contacts := onehot5 4 } = onehot5 4 := rfl

/-- ConsecutiveScansCycleThroughTheLines: six scans to come. -/
theorem witness_six_scans : (sRun 6 (ev 0x3000 2 false)).NextWords (5 + 1) 0x3000#16 := by
  refine ⟨by decide, fun e he => ?_⟩
  rw [List.eq_of_mem_replicate (List.mem_of_mem_take he)]
  rfl

/-- SwitchPositionIsFoundWithinFiveScans: exactly five scans with the switch at position 4. -/
theorem witness_five_scans_of_a_switch :
    5 ≤ 5 ∧ (sRun 5 (ev 0x3000 4 false)).NextWords 5 0x3000#16 ∧
    ∀ e ∈ (sRun 5 (ev 0x3000 4 false)).events.take 5, e.contacts = onehot5 4 := by
  refine ⟨Nat.le_refl 5, ⟨by decide, fun e he => ?_⟩, fun e he => ?_⟩ <;>
    rw [List.eq_of_mem_replicate (List.mem_of_mem_take he)] <;> rfl

/-- A SCAN, a SLOW, a TKS that matches and a MUTS, each with every line closed but the one driven in the scan step. -/
def sUndetected : State :=
  { s0 with
    scnt := 1
    events := [⟨0x3000, 0b11110, false⟩, ⟨0x9000, 0b11101, true⟩, ⟨0xB000, 0b11011, false⟩, ⟨0x7000, 0b11111, true⟩] }

/-- PositionIsRetainedWithoutDetection: the four steps of `sUndetected`. -/
theorem witness_no_detection :
    (∀ (k : Nat) (u : State) (e : Event) (rest : List Event), k < 4 → runSteps k sUndetected = .next u →
      u.events = e :: rest →
      (e.word = 0x3000#16 ∨ e.word = 0x9000#16 ∨ e.word = 0xB000#16 ∧ u.scnt.toNat + 1 = u.cfg.data.slowDiv) →
        e.contacts.getLsbD u.phase.val = false) ∧
    ∃ t, runSteps 4 sUndetected = .next t ∧ t.phase = 3 := by
  refine ⟨fun k u e rest hk hu he hw => ?_, _, rfl, by decide⟩
  match k, hk with
  | 0, _ => cases hu; cases he; rfl
  | 1, _ => cases hu; cases he; rfl
  | 2, _ => cases hu; cases he; rfl
  | 3, _ => cases hu; cases he; exact absurd hw (by decide)

theorem witness_idle_link : s0.pins.csN = true ∧ s0.pins.sck = true := by decide

/-- SampleReachesTheFrame: the level of the conversion equal to STABLE, and outside its dead band at both ends. -/
theorem witness_sample_outside :
    (State.stable { s0 with stable := 204 }).toInt = ((816#10).toNat / 4 : Nat) ∧
    1 < |(((816#10).toNat / 4 : Nat) : Int) - (State.stable { s0 with stable := 206 }).toInt| ∧
    1 < |(((816#10).toNat / 4 : Nat) : Int) - (State.stable { s0 with stable := 202 }).toInt| := by decide

/-- RepeatedUpdtSendsTheSameFrameAgain, NoOperationReadsMute, FrameLeavesTheLinkIdle, and the last clause of
TkfCountsAndTriggersOnTheMatch (an operation other than TKF). -/
theorem witness_updt :
    ∃ t, exec .updt s0 = .next t ∧ Instr.updt ≠ .tkf ∧ Instr.updt ≠ .muts ∧ Instr.updt ≠ .slow ∧ Instr.updt ≠ .tks ∧
      t.trace = s0.trace ++ [.frame 0 1] :=
  ⟨_, rfl, by decide, by decide, by decide, by decide, by decide⟩

theorem witness_not_nop : Instr.tkf ≠ .nop := by decide

/-- TkfCountsAndTriggersOnTheMatch: the match and both ends of the other clause; PastItsTopACounterTakesAFreeValue. -/
theorem witness_tkf_clauses :
    (State.fcnt { s0 with fcnt := 2 }).toNat + 1 = s0.cfg.data.fastDiv ∧
    ((State.fcnt { s0 with fcnt := 0 }).toNat + 1 ≠ s0.cfg.data.fastDiv ∧
      (State.fcnt { s0 with fcnt := 0 }).toNat < 65535) ∧
    ((State.fcnt { s0 with fcnt := 65534 }).toNat + 1 ≠ s0.cfg.data.fastDiv ∧
      (State.fcnt { s0 with fcnt := 65534 }).toNat < 65535) ∧
    (State.fcnt { s0 with fcnt := 65535 }).toNat = 65535 := by decide

theorem witness_fast_divider :
    (sRun 4 (ev 0xA000 0 false)).fcnt.toNat < (sRun 4 (ev 0xA000 0 false)).cfg.data.fastDiv ∧
    (sRun 4 (ev 0xA000 0 false)).NextWords 4 0xA000#16 := by
  refine ⟨by decide, by decide, fun e he => ?_⟩
  rw [List.eq_of_mem_replicate (List.mem_of_mem_take he)]
  rfl

/-- TksCountsAndRunsTheSlowEventOnTheMatch and PastItsTopACounterTakesAFreeValue, as for TKF. -/
theorem witness_tks_clauses :
    (State.scnt { s0 with scnt := 1 }).toNat + 1 = s0.cfg.data.slowDiv ∧
    ((State.scnt { s0 with scnt := 0 }).toNat + 1 ≠ s0.cfg.data.slowDiv ∧
      (State.scnt { s0 with scnt := 0 }).toNat < 65535) ∧
    ((State.scnt { s0 with scnt := 65534 }).toNat + 1 ≠ s0.cfg.data.slowDiv ∧
      (State.scnt { s0 with scnt := 65534 }).toNat < 65535) ∧
    (State.scnt { s0 with scnt := 65535 }).toNat = 65535 := by decide

theorem witness_slow_divider :
    (sRun 4 (ev 0xB000 0 false)).scnt.toNat < (sRun 4 (ev 0xB000 0 false)).cfg.data.slowDiv ∧
    (sRun 4 (ev 0xB000 0 false)).subsec.toNat < (sRun 4 (ev 0xB000 0 false)).cfg.data.secDiv ∧
    (sRun 4 (ev 0xB000 0 false)).NextWords 4 0xB000#16 := by
  refine ⟨by decide, by decide, by decide, fun e he => ?_⟩
  rw [List.eq_of_mem_replicate (List.mem_of_mem_take he)]
  rfl

theorem witness_parts_in_another_order : ([.etck, .scan, .muts] : List Instr).Perm [.scan, .muts, .etck] := by decide

/-- EtckCountsAndSaturates and PastItsTopACounterTakesAFreeValue, as for TKF. -/
theorem witness_etck_clauses :
    (State.subsec { s0 with subsec := 49 }).toNat + 1 = s0.cfg.data.secDiv ∧
    ((State.subsec { s0 with subsec := 0 }).toNat + 1 ≠ s0.cfg.data.secDiv ∧
      (State.subsec { s0 with subsec := 0 }).toNat < 65535) ∧
    ((State.subsec { s0 with subsec := 65534 }).toNat + 1 ≠ s0.cfg.data.secDiv ∧
      (State.subsec { s0 with subsec := 65534 }).toNat < 65535) ∧
    (State.subsec { s0 with subsec := 65535 }).toNat = 65535 := by decide

/-- ElapsedTimeClosedForm: exactly SEC_DIV steps, and one fewer, from SUBSEC = 0 and the last ELAPSED below the top. -/
theorem witness_elapsed_time :
    (State.subsec { sRun 50 (ev 0x8000 0 false) with elapsed := 65534 }).toNat < s0.cfg.data.secDiv ∧
    (State.NextWords { sRun 50 (ev 0x8000 0 false) with elapsed := 65534 } 50 0x8000#16) ∧
    (State.subsec { sRun 50 (ev 0x8000 0 false) with elapsed := 65534 } = 0#16 ∧
      (State.elapsed { sRun 50 (ev 0x8000 0 false) with elapsed := 65534 }).toNat < 65535) ∧
    50 = s0.cfg.data.secDiv ∧ 49 < s0.cfg.data.secDiv := by
  refine ⟨by decide, ⟨by decide, fun e he => ?_⟩, by decide, by decide, by decide⟩
  rw [List.eq_of_mem_replicate (List.mem_of_mem_take he)]
  rfl

/-- EachRegisterHasItsWriters: every register does change in some step. -/
theorem witness_writers :
    (∃ t, exec (.smpl 4) s0 = .next t ∧ t.raw ≠ s0.raw) ∧ (∃ t, exec (.filt 9) s0 = .next t ∧ t.stable ≠ s0.stable) ∧
    (∃ t, exec (.lkup .right 50) s0 = .next t ∧ t.yr ≠ s0.yr) ∧
    (∃ t, exec (.lkup .left 50) s0 = .next t ∧ t.yl ≠ s0.yl) ∧
    (∃ s t, exec .slow s = .next t ∧ t.sel ≠ s.sel ∧ t.phase ≠ s.phase ∧ t.drive ≠ s.drive ∧ t.mute ≠ s.mute ∧
      t.elapsed ≠ s.elapsed ∧ t.subsec ≠ s.subsec) ∧
    (∃ t, exec .tkf s0 = .next t ∧ t.fcnt ≠ s0.fcnt) ∧ (∃ t, exec .tks s0 = .next t ∧ t.scnt ≠ s0.scnt) ∧
    ∃ s t, exec .send s = .next t ∧ t.trace ≠ s.trace ∧ t.pins ≠ s.pins :=
  ⟨⟨_, rfl, by decide⟩, ⟨_, rfl, by decide⟩, ⟨_, rfl, by decide⟩, ⟨_, rfl, by decide⟩,
    ⟨{ s0 with contacts := 31, muteIn := true, subsec := 49 }, _, rfl, by decide, by decide, by decide, by decide,
      by decide, by decide⟩,
    ⟨_, rfl, by decide⟩, ⟨_, rfl, by decide⟩,
    ⟨{ s0 with pins := ⟨true, true, true, false⟩ }, _, rfl, by decide, by decide⟩⟩

theorem witness_step_next : ∃ t, step (sRun 1 (ev 0x5000 0 false)) = .next t ∧ t.yl = 1#8 := ⟨_, rfl, by decide⟩

/-- OutputEventsComeFromTheirOperations: a trigger, and a frame, among what is emitted. -/
theorem witness_output_events :
    (∃ t, exec .tkf { s0 with fcnt := 2 } = .next t ∧ t.trace = [] ++ [.sampleTrig] ∧
      OutEvent.sampleTrig ∈ [OutEvent.sampleTrig]) ∧
    ∃ t, exec .send s0 = .next t ∧ t.trace = [] ++ [.frame 0 0] ∧ OutEvent.frame 0 0 ∈ [OutEvent.frame 0 0] :=
  ⟨⟨_, rfl, by decide, by decide⟩, _, rfl, by decide, by decide⟩

/-- HostOperationsCommuteWithTheOtherSources: a host operation and one of each other kind, for every clause. -/
theorem witness_host_and_source :
    (∀ h ∈ [Instr.nop, .send, .updt, .filt 3, .lkup .left 9],
      h = .nop ∨ h = .send ∨ h = .updt ∨ (∃ x, h = .filt x) ∨ ∃ ch x, h = .lkup ch x) ∧
    Instr.tks ∈ [Instr.scan, .muts, .etck, .slow, .tks] ∧
    (Instr.tkf = .tkf ∧ Instr.filt 3 ≠ .send ∧ Instr.filt 3 ≠ .updt) ∧
    ((∃ c, Instr.smpl 3 = .smpl c) ∧ Instr.send ≠ .updt) := by
  refine ⟨?_, by decide, by decide, ⟨3, rfl⟩, by decide⟩
  simp

end Sys2Proof.Tests
end

section
/-! Proofs of the statements about the state: the reset values, the legality invariant, what never goes back, the
writers of each register and the sources of the output events (spec/10_state.md). -/

namespace Sys2Proof.Machine

/-! ### Facts about the shared operations that the proofs below cite -/

/-- A level from 0 to 255 is its own number when read from the signed register STABLE (R22). -/
theorem toInt_ofNat_level {n : Nat} (h : n ≤ 255) : (BitVec.ofNat 16 n).toInt = n := by
  rw [BitVec.toInt_eq_toNat_of_lt] <;> rw [BitVec.toNat_ofNat, Nat.mod_eq_of_lt] <;> omega

/-- The six bits below a left-justified conversion are zero (R78). -/
theorem leftJustify_low (c : BitVec 10) : (leftJustify c).extractLsb' 0 6 = 0#6 :=
  BitVec.extractLsb'_append_eq_right

/-- The filter answers a level, whether it keeps the old one or takes the raw value (R121, R122). -/
theorem filter_range (raw : Byte) {stable : Word} (h : 0 ≤ stable.toInt ∧ stable.toInt ≤ 255) :
    0 ≤ (filter raw stable).toInt ∧ (filter raw stable).toInt ≤ 255 := by
  by_cases hin : -1 ≤ (raw.toNat : Int) - stable.toInt ∧ (raw.toNat : Int) - stable.toInt ≤ 1
  · rwa [filter_inside raw stable hin]
  · rw [filter_outside raw stable hin, toInt_zeroExtend]
    omega

/-- Below a period a counter that does not match stays below it. -/
theorem toNat_countOn_lt {c : Word} {d : Nat} (k : Nat) (hd : d ≤ 65535) (hc : c.toNat < d)
    (hne : c.toNat + 1 ≠ d) : (countOn c k).toNat < d := by
  rw [countOn_below c k (by omega), toNat_succ c (by omega)]
  omega

/-- ELAPSED counts up or stays (R30). -/
theorem le_toNat_saturatingNext (e : Word) : e.toNat ≤ (saturatingNext e).toNat := by
  have := e.isLt
  rw [toNat_saturatingNext]
  omega

/-- A scan step always drives a line (R28, R130). -/
theorem onehot5_ne_zero : ∀ k : Fin 5, onehot5 k ≠ 0#5 := by decide

/-- The line driven is the one before the new PHASE (R35 (f)). -/
theorem onehot5_before_next_phase : ∀ k : Fin 5, onehot5 k = onehot5 (k + 1 + 4) := by decide

/-- The number of a line is a known position (R26). -/
theorem line_is_known_position : ∀ k : Fin 5,
    (BitVec.ofNat 3 k.val).toNat ≤ 4 ∧ BitVec.ofNat 3 k.val ≠ 7#3 := by decide

/-- A scan step latches the line it drives, or detects nothing and keeps SEL (R133). -/
theorem scanStep_sel (s : State) :
    (scanStep s).sel = BitVec.ofNat 3 s.phase.val ∨ (scanStep s).sel = s.sel := by
  rw [scanStep_eq]
  exact ite_eq_or_eq _ _ _

/-- A frame carries the two result bytes as they are after it (R153). -/
theorem sendFrame_trace (s : State) :
    (sendFrame s).trace = s.trace ++ [.frame (sendFrame s).yr (sendFrame s).yl] := rfl

/-- A step with a legal word next is the decoded operation, performed with that event's answers at the ports. -/
theorem step_present {s : State} {e : Event} {rest : List Event} {i : Instr} (he : s.events = e :: rest)
    (hd : decode e.word = .ok i) : step s = exec i (s.present e rest) := by
  unfold step
  rw [he]
  simp only [hd]

/-! ### The legality invariant (R35) -/

/-- Presenting an event writes no register. -/
theorem State.Inv.present {s : State} (h : s.Inv) (e : Event) (rest : List Event) : (s.present e rest).Inv :=
  { h with }

theorem State.Inv.writeRaw {s : State} (h : s.Inv) (c : BitVec 10) : (s.writeRaw (leftJustify c)).Inv :=
  { h with rawLow := leftJustify_low c }

theorem State.Inv.writeStable_filter {s : State} (h : s.Inv) (raw : Byte) :
    (s.writeStable (filter raw s.stable)).Inv :=
  { h with stableRange := filter_range raw h.stableRange }

/-- The invariant says nothing of the result bytes. -/
theorem State.Inv.writeResult {s : State} (h : s.Inv) (ch : Channel) (v : Byte) : (writeResult ch v s).Inv := by
  cases ch <;> exact { h with }

/-- A scan step drives the line before the new PHASE, and SEL keeps its value or takes the number of that line. -/
theorem State.Inv.scanStep {s : State} (h : s.Inv) : (scanStep s).Inv := by
  have hsel : (Machine.scanStep s).sel.toNat ≤ 4 ∨ (Machine.scanStep s).sel = 7#3 := by
    obtain hs | hs := scanStep_sel s <;> rw [hs]
    · exact .inl (line_is_known_position s.phase).1
    · exact h.selLegal
  rw [scanStep_eq] at hsel ⊢
  exact
    { h with
      selLegal := hsel
      driveFollows := .inr (onehot5_before_next_phase s.phase)
      undriven := fun h0 => absurd h0 (onehot5_ne_zero s.phase) }

/-- The invariant says nothing of MUTE. -/
theorem State.Inv.muteSample {s : State} (h : s.Inv) : (muteSample s).Inv := { h with }

theorem State.Inv.elapsedStep {s : State} (h : s.Inv) : (elapsedStep s).Inv := by
  obtain ⟨-, -, hpos, hmax⟩ := divider_bounds s.cfg
  unfold Machine.elapsedStep
  split
  · exact { h with subsecBelow := hpos }
  · next hne => exact { h with subsecBelow := toNat_countOn_lt _ hmax h.subsecBelow hne }

theorem State.Inv.slowEvent {s : State} (h : s.Inv) : (slowEvent s).Inv := h.scanStep.muteSample.elapsedStep

/-- A frame leaves the serial link at rest (R222). -/
theorem State.Inv.sendFrame {s : State} (h : s.Inv) : (sendFrame s).Inv := by
  rw [sendFrame_eq]
  exact { h with linkIdle := ⟨rfl, rfl, h.linkIdle.2.2⟩ }

theorem State.Inv.fastTick {s : State} (h : s.Inv) : (fastTick s).Inv := by
  obtain ⟨⟨hpos, hmax⟩, -⟩ := divider_bounds s.cfg
  obtain ⟨hcs, hsck, -⟩ := h.linkIdle
  rw [fastTick_eq]
  split
  · exact { h with fcntBelow := hpos, linkIdle := ⟨hcs, hsck, rfl⟩ }
  · next hne => exact { h with fcntBelow := toNat_countOn_lt _ hmax h.fcntBelow hne }

theorem State.Inv.slowTick {s : State} (h : s.Inv) : (slowTick s).Inv := by
  obtain ⟨-, ⟨hpos, hmax⟩, -⟩ := divider_bounds s.cfg
  rw [slowTick_eq]
  split
  · have hreset : State.Inv { s with scnt := 0#16 } := { h with scntBelow := hpos }
    exact hreset.slowEvent
  · next hne => exact { h with scntBelow := toNat_countOn_lt _ hmax h.scntBelow hne }

/-- Every operation keeps the invariant, because each of the shared operations it is made of does. -/
theorem State.Inv.exec {s t : State} {i : Instr} (h : s.Inv) (hx : exec i s = .next t) : t.Inv := by
  cases i <;> cases hx
  case nop => exact h
  case lkup ch x => exact h.writeResult ch _
  case filt x => exact h.writeStable_filter x
  case scan => exact h.scanStep
  case smpl c => exact h.writeRaw c
  case updt => exact (((h.writeStable_filter _).writeResult .right _).writeResult .left _).sendFrame
  case send => exact h.sendFrame
  case muts => exact h.muteSample
  case etck => exact h.elapsedStep
  case slow => exact h.slowEvent
  case tkf => exact h.fastTick
  case tks => exact h.slowTick

/-- The reset state is legal under every configuration, because every divider is at least 1 (R9). -/
theorem resetWith_inv (c : Config) (k : Nat) : (State.resetWith c k).Inv := by
  obtain ⟨⟨hfast, -⟩, ⟨hslow, -⟩, hsec, -⟩ := divider_bounds c
  have hstable : (State.resetWith c k).stable.toInt = c.data.stableReset := toInt_ofNat_level (offset_bounds c).2
  have hmax := (offset_bounds c).2
  exact
    { rawLow := rfl
      stableRange := by omega
      selLegal := .inr rfl
      driveFollows := .inl rfl
      undriven := fun _ => ⟨rfl, rfl⟩
      subsecBelow := hsec
      fcntBelow := hfast
      scntBelow := hslow
      linkIdle := ⟨rfl, rfl, rfl⟩ }

/-- LEFT_OFFSET of the machine's own configuration, whichever one it is (R8). -/
theorem boot_leftOffset : Config.boot.data.leftOffset = 4 := by
  unfold Config.boot
  split <;> rfl

/-- Settles O4: an idle step changes nothing, and any other step is an operation after an event is presented. -/
theorem stepKeepsLegality : Obligations.StepKeepsLegality := by
  intro s t h hs
  obtain ⟨-, rfl⟩ | ⟨e, rest, i, -, -, hx⟩ := step_next_cases s t hs
  · exact h
  · exact (h.present e rest).exec hx

/-- Settles O3: the machine's own configuration is one of those of `resetWith_inv`. -/
theorem resetStateIsLegal : Obligations.ResetStateIsLegal :=
  ⟨resetWith_inv _ _, boot_leftOffset, resetWith_inv⟩

/-- Settles O1: STABLE_RESET is at most 255 (R10), so the signed level is that number; the rest is R46 read off. -/
theorem resetStateHasTheSpecifiedValues : Obligations.ResetStateHasTheSpecifiedValues := by
  refine ⟨⟨Config.boot, 0, rfl⟩, fun c k => ⟨rfl, ?_, rfl, rfl, rfl, rfl, rfl⟩⟩
  exact toInt_ofNat_level (offset_bounds c).2

/-- Settles O7: `step_present` with an event to come, `step_idle` without one. -/
theorem stepPerformsTheDecodedOperation : Obligations.StepPerformsTheDecodedOperation :=
  fun s => ⟨fun _ _ _ he hd => step_present he hd, step_idle s⟩

/-! ### The writers of the registers and the sources of the output events -/

/-- Settles O51: each operation as one update of the state, which names the registers it writes. -/
theorem eachRegisterHasItsWriters : Obligations.EachRegisterHasItsWriters := by
  intro i s t h
  cases i <;> cases h
  case nop => simp
  case lkup ch x => cases ch <;> simp [writeResult]
  case filt x => simp
  case scan => simp [scanStep_eq]
  case smpl c => simp
  case updt => simp [sendFrame_eq, updateBytes, updateLevel]
  case send => simp [sendFrame_eq]
  case muts => simp [muteSample]
  case etck => simp [elapsedStep_eq]
  case slow => simp [slowEvent_eq]
  case tkf => rw [fastTick_eq]; split <;> simp
  case tks => rw [slowTick_eq]; split <;> simp [slowEvent_eq]

/-- An operation other than SEND, UPDT and TKF emits nothing. -/
theorem exec_silent {i : Instr} {s t : State} (h : exec i s = .next t) (hi : i ∉ [.send, .updt, .tkf]) :
    t.trace = s.trace := by
  obtain ⟨-, -, -, -, -, -, -, -, -, hout, -⟩ := eachRegisterHasItsWriters i s t h
  by_contra hne
  exact hi (hout (.inl hne))

/-- Settles O53: SEND and UPDT end with a frame, TKF emits a trigger on the match, the others are silent. -/
theorem outputEventsComeFromTheirOperations : Obligations.OutputEventsComeFromTheirOperations := by
  intro i s t h
  cases i
  case send => cases h; exact ⟨_, sendFrame_trace s, by simp⟩
  case updt => cases h; exact ⟨_, sendFrame_trace (updateBytes (updateLevel s)), by simp⟩
  case tkf =>
    cases h
    rw [fastTick_eq]
    split
    · exact ⟨[.sampleTrig], rfl, by simp⟩
    · exact ⟨[], by simp⟩
  all_goals exact ⟨[], by rw [exec_silent h (by simp), List.append_nil], by simp⟩

/-! ### What never goes back (R26, R30, R134, R44) -/

/-- `t` is not earlier than `s` as ELAPSED, SEL and DRIVE tell it. -/
structure State.NotAfter (s t : State) : Prop where
  elapsed : s.elapsed.toNat ≤ t.elapsed.toNat
  selKnown : s.sel ≠ 7#3 → t.sel ≠ 7#3
  driven : s.drive ≠ 0#5 → t.drive ≠ 0#5

theorem State.NotAfter.trans {s t u : State} (hst : s.NotAfter t) (htu : t.NotAfter u) : s.NotAfter u :=
  ⟨hst.elapsed.trans htu.elapsed, htu.selKnown ∘ hst.selKnown, htu.driven ∘ hst.driven⟩

/-- SEL keeps its value or takes a known one, and a line is driven. -/
theorem notAfter_scanStep (s : State) : s.NotAfter (scanStep s) := by
  have hsel : s.sel ≠ 7#3 → (scanStep s).sel ≠ 7#3 := by
    obtain hs | hs := scanStep_sel s <;> rw [hs]
    · exact fun _ => (line_is_known_position s.phase).2
    · exact id
  rw [scanStep_eq] at hsel ⊢
  exact ⟨le_rfl, hsel, fun _ => onehot5_ne_zero s.phase⟩

theorem notAfter_elapsedStep (s : State) : s.NotAfter (elapsedStep s) := by
  unfold elapsedStep
  split
  · exact ⟨le_toNat_saturatingNext s.elapsed, id, id⟩
  · exact ⟨le_rfl, id, id⟩

theorem notAfter_slowEvent (s : State) : s.NotAfter (slowEvent s) := by
  have hmute : (scanStep s).NotAfter (muteSample (scanStep s)) := ⟨le_rfl, id, id⟩
  exact ((notAfter_scanStep s).trans hmute).trans (notAfter_elapsedStep _)

theorem notAfter_slowTick (s : State) : s.NotAfter (slowTick s) := by
  rw [slowTick_eq]
  split
  · have hreset : s.NotAfter { s with scnt := 0#16 } := ⟨le_rfl, id, id⟩
    exact hreset.trans (notAfter_slowEvent _)
  · exact ⟨le_rfl, id, id⟩

/-- Only the scan step and the elapsed-time step write ELAPSED, SEL or DRIVE. -/
theorem exec_notAfter {i : Instr} {s t : State} (h : exec i s = .next t) : s.NotAfter t := by
  cases i <;> cases h
  case lkup ch x => cases ch <;> exact ⟨le_rfl, id, id⟩
  case scan => exact notAfter_scanStep s
  case etck => exact notAfter_elapsedStep s
  case slow => exact notAfter_slowEvent s
  case tkf => rw [fastTick_eq]; split <;> exact ⟨le_rfl, id, id⟩
  case tks => exact notAfter_slowTick s
  all_goals exact ⟨le_rfl, id, id⟩

/-- Settles O5: an idle step changes nothing; of an operation, `exec_notAfter` and the sources of output events. -/
theorem stepNeverGoesBack : Obligations.StepNeverGoesBack := by
  intro s t hs
  obtain ⟨-, rfl⟩ | ⟨e, rest, i, -, -, hx⟩ := step_next_cases s t hs
  · exact ⟨le_rfl, id, id, [], (List.append_nil _).symm⟩
  · obtain ⟨he, hsel, hdrive⟩ := exec_notAfter hx
    obtain ⟨out, htrace, -⟩ := outputEventsComeFromTheirOperations i _ t hx
    exact ⟨he, hsel, hdrive, out, htrace⟩

/-! ### The sense line and the counters at their top -/

/-- Settles O28: the answer with bit k equal to `f k`, and the symmetry of `onehot5 p` at bit k. -/
theorem everyResponseOfTheSenseLineIsExpressible : Obligations.EveryResponseOfTheSenseLineIsExpressible := by
  constructor
  · refine fun f => ⟨BitVec.ofFnLE f, fun s hs => ?_⟩
    rw [senseLevel_driveLine, hs, BitVec.getLsbD_ofFnLE, dif_pos s.phase.isLt]
  · intro p s hs
    have hsymm : ∀ k p : Fin 5, (onehot5 p).getLsbD k.val = (onehot5 k).getLsbD p.val := by decide
    rw [senseLevel_driveLine, hs]
    exact hsymm s.phase p

/-- Settles O49: a counter at 65535 is past every period (R9), so it does not match and takes a free value. -/
theorem pastItsTopACounterTakesAFreeValue : Obligations.PastItsTopACounterTakesAFreeValue := by
  intro s
  obtain ⟨⟨-, hfast⟩, ⟨-, hslow⟩, -, hsec⟩ := divider_bounds s.cfg
  refine ⟨fun h => ⟨fastTick s, rfl, ?_⟩, fun h => ⟨slowTick s, rfl, ?_⟩, fun h => ⟨elapsedStep s, rfl, ?_⟩⟩
  · rw [fastTick_eq, if_neg (by omega), countTaken_top _ _ h]
  · rw [slowTick_eq, if_neg (by omega), countTaken_top _ _ h]
  · rw [elapsedStep_eq]
    simp only [if_neg (show s.subsec.toNat + 1 ≠ s.cfg.data.secDiv by omega), countTaken_top _ _ h]

end Sys2Proof.Machine
end

section
/-! Proofs of the statements about the table and about operations that commute (spec/20_memory.md). -/

namespace Sys2Proof.Machine

/-! ### The configuration and the table (R51, R52) -/

/-- No operation writes the configuration (R51). -/
theorem exec_cfg {i : Instr} {s t : State} (hx : exec i s = .next t) : t.cfg = s.cfg := by
  obtain ⟨-, -, -, -, -, -, -, -, -, -, hcfg, -⟩ := eachRegisterHasItsWriters i s t hx
  exact hcfg

/-- A step keeps the configuration, idle or not. -/
theorem step_cfg {s t : State} (hs : step s = .next t) : t.cfg = s.cfg := by
  obtain ⟨-, rfl⟩ | ⟨e, rest, i, -, -, hx⟩ := step_next_cases s t hs
  · rfl
  · exact (exec_cfg hx :)

/-- The indices that read an input are those of the table. -/
theorem isSome_readIn (c : Config) (a : Nat) : (readIn c a).isSome = true ↔ a < tableSize c := by
  simp [readIn, tableSize]

/-- The indices that read an output are those of the table. -/
theorem isSome_readOut (c : Config) (a : Nat) : (readOut c a).isSome = true ↔ a < tableSize c := by
  simp [readOut, tableSize]

/-- Settles O52: the configuration is kept (`step_cfg`), and the table is part of it. -/
theorem noStepWritesTheTable : Obligations.NoStepWritesTheTable := by
  intro s t hs
  rw [step_cfg hs]
  exact ⟨rfl, fun a => ⟨rfl, rfl, isSome_readIn s.cfg a, isSome_readOut s.cfg a⟩⟩

/-! ### Two operations one after the other -/

/-- The second of two operations starts where the first ended. -/
theorem execSeq_pair {i j : Instr} {s t u : State} (hi : exec i s = .next t) (hj : exec j t = .next u) :
    execSeq [i, j] s = .next u := by
  simp only [execSeq, hi, hj]

/-- Every operation completes in every state (R200). -/
theorem exec_next (i : Instr) (s : State) : ∃ t, exec i s = .next t := by
  cases i <;> exact ⟨_, rfl⟩

/-- Two operations that end in one state in either order. -/
theorem execSeq_comm {h i : Instr} {s a t u : State} (hh : exec h s = .next a) (hai : exec i a = .next u)
    (hi : exec i s = .next t) (hth : exec h t = .next u) :
    execSeq [h, i] s = execSeq [i, h] s ∧ ∃ v, execSeq [h, i] s = .next v := by
  rw [execSeq_pair hh hai, execSeq_pair hi hth]
  exact ⟨rfl, u, rfl⟩

/-! ### The host's part of the state (R34, R58) -/

/-- The operations of the host; the others are those of the other sources (R58). -/
def isHostOp : Instr → Bool
  | .nop => true
  | .lkup _ _ => true
  | .filt _ => true
  | .updt => true
  | .send => true
  | .scan => false
  | .smpl _ => false
  | .muts => false
  | .etck => false
  | .slow => false
  | .tkf => false
  | .tks => false

/-- What the host's operations write: the level, the result bytes, and what a frame leaves on the trace and the pins. -/
structure HostPart where
  stable : Word
  yr : Byte
  yl : Byte
  trace : List OutEvent
  pins : Pins

/-- The host's part of a state. -/
def State.hostPart (s : State) : HostPart := ⟨s.stable, s.yr, s.yl, s.trace, s.pins⟩

/-- The state with another host's part. -/
def State.setHostPart (p : HostPart) (s : State) : State :=
  { s with stable := p.stable, yr := p.yr, yl := p.yl, trace := p.trace, pins := p.pins }

/-- A host operation writes nothing outside the host's part. -/
theorem host_writes {h : Instr} {s a : State} (hh : isHostOp h = true) (hx : exec h s = .next a) :
    a = s.setHostPart a.hostPart := by
  cases h <;> cases hh <;> cases hx
  case lkup ch x => cases ch <;> rfl
  all_goals rfl

/-- A host operation computes the host's part from that part and the configuration, and UPDT from RAW too. -/
theorem host_reads {h : Instr} {s a t b : State} (hh : isHostOp h = true) (hs : exec h s = .next a)
    (ht : exec h t = .next b) (hcfg : t.cfg = s.cfg) (hpart : t.hostPart = s.hostPart)
    (hraw : h = .updt → t.raw = s.raw) : b.hostPart = a.hostPart := by
  simp only [State.hostPart, HostPart.mk.injEq] at hpart ⊢
  obtain ⟨hstable, hyr, hyl, htrace, hpins⟩ := hpart
  cases h <;> cases hh <;> cases hs <;> cases ht
  case nop => simp [*]
  case lkup ch x => cases ch <;> simp [writeResult, *]
  case filt x => simp [*]
  case updt => simp [sendFrame_eq, updateBytes, updateLevel, hraw rfl, *]
  case send => simp [sendFrame_eq, *]

section
variable (p : HostPart) (s : State)

theorem scanStep_setHostPart : scanStep (s.setHostPart p) = (scanStep s).setHostPart p := by
  rw [scanStep_eq, scanStep_eq]
  rfl

theorem elapsedStep_setHostPart : elapsedStep (s.setHostPart p) = (elapsedStep s).setHostPart p := by
  rw [elapsedStep_eq, elapsedStep_eq]
  rfl

theorem slowEvent_setHostPart : slowEvent (s.setHostPart p) = (slowEvent s).setHostPart p := by
  rw [slowEvent_eq, slowEvent_eq]
  rfl

theorem slowTick_setHostPart : slowTick (s.setHostPart p) = (slowTick s).setHostPart p := by
  rw [slowTick_eq s, apply_ite (State.setHostPart p), ← slowEvent_setHostPart]
  rfl

end

/-- An operation of another source neither reads nor writes the host's part, if it is not TKF, which emits. -/
theorem source_setHostPart {i : Instr} {s t : State} (hi : isHostOp i = false) (htkf : i ≠ .tkf)
    (hx : exec i s = .next t) (p : HostPart) : exec i (s.setHostPart p) = .next (t.setHostPart p) := by
  cases i <;> cases hi <;> cases hx
  case scan => exact congrArg Host.Outcome.next (scanStep_setHostPart p s)
  case smpl c => rfl
  case muts => rfl
  case etck => exact congrArg Host.Outcome.next (elapsedStep_setHostPart p s)
  case slow => exact congrArg Host.Outcome.next (slowEvent_setHostPart p s)
  case tkf => exact absurd rfl htkf
  case tks => exact congrArg Host.Outcome.next (slowTick_setHostPart p s)

/-- So it keeps that part: put back what it held, and the step is the same. -/
theorem source_hostPart {i : Instr} {s t : State} (hi : isHostOp i = false) (htkf : i ≠ .tkf)
    (hx : exec i s = .next t) : t.hostPart = s.hostPart := by
  have hback : exec i s = .next (t.setHostPart s.hostPart) := source_setHostPart hi htkf hx s.hostPart
  injection hx.symm.trans hback with ht
  rw [ht]
  rfl

/-- An operation of another source keeps the sample slot, if it is not SMPL. -/
theorem source_raw {i : Instr} {s t : State} (hi : ∀ c, i ≠ .smpl c) (hx : exec i s = .next t) : t.raw = s.raw := by
  obtain ⟨hraw, -⟩ := eachRegisterHasItsWriters i s t hx
  by_contra hne
  obtain ⟨c, rfl⟩ := hraw hne
  exact hi c rfl

/-- A host operation and one of another source but TKF commute: each leaves alone what the other reads, unless UPDT
meets SMPL. -/
theorem host_comm_source {h i : Instr} (s : State) (hh : isHostOp h = true) (hi : isHostOp i = false)
    (htkf : i ≠ .tkf) (hslot : h = .updt → ∀ c, i ≠ .smpl c) :
    execSeq [h, i] s = execSeq [i, h] s ∧ ∃ t, execSeq [h, i] s = .next t := by
  obtain ⟨a, ha⟩ := exec_next h s
  obtain ⟨t, ht⟩ := exec_next i s
  obtain ⟨b, hb⟩ := exec_next h t
  have hpart : b.hostPart = a.hostPart :=
    host_reads hh ha hb (exec_cfg ht) (source_hostPart hi htkf ht) fun hu => source_raw (hslot hu) ht
  have hai : exec i a = .next b := by
    rw [host_writes hh ha, host_writes hh hb, hpart]
    exact source_setHostPart hi htkf ht a.hostPart
  exact execSeq_comm ha hai ht hb

/-! ### The fast divider and the computing operations (R170) -/

section
variable (s : State)

theorem fastTick_writeStable (v : Word) : fastTick (s.writeStable v) = (fastTick s).writeStable v := by
  rw [fastTick_eq s, apply_ite (State.writeStable v)]
  rfl

theorem fastTick_writeYr (v : Byte) : fastTick (s.writeYr v) = (fastTick s).writeYr v := by
  rw [fastTick_eq s, apply_ite (State.writeYr v)]
  rfl

theorem fastTick_writeYl (v : Byte) : fastTick (s.writeYl v) = (fastTick s).writeYl v := by
  rw [fastTick_eq s, apply_ite (State.writeYl v)]
  rfl

@[simp] theorem fastTick_cfg : (fastTick s).cfg = s.cfg := by rw [fastTick_eq]; split <;> rfl
@[simp] theorem fastTick_raw : (fastTick s).raw = s.raw := by rw [fastTick_eq]; split <;> rfl
@[simp] theorem fastTick_stable : (fastTick s).stable = s.stable := by rw [fastTick_eq]; split <;> rfl

/-- A tick commutes with a result byte written. -/
theorem fastTick_writeResult (ch : Channel) (v : Byte) :
    fastTick (writeResult ch v s) = writeResult ch v (fastTick s) := by
  cases ch
  · exact fastTick_writeYr s v
  · exact fastTick_writeYl s v

/-- A tick commutes with all of UPDT but its frame: the tick writes nothing that UPDT reads. -/
theorem fastTick_update : fastTick (updateBytes (updateLevel s)) = updateBytes (updateLevel (fastTick s)) := by
  simp [updateBytes, updateLevel, fastTick_writeStable, fastTick_writeYr, fastTick_writeYl]

end

/-- TKF commutes with the host operations that emit nothing: they write neither the counter nor the trace. -/
theorem silent_host_comm_tkf {h : Instr} (s : State) (hh : isHostOp h = true) (hsend : h ≠ .send)
    (hupdt : h ≠ .updt) :
    execSeq [h, .tkf] s = execSeq [.tkf, h] s ∧ ∃ t, execSeq [h, .tkf] s = .next t := by
  cases h <;> cases hh
  case nop => exact execSeq_comm rfl rfl rfl rfl
  case lkup ch x =>
    refine execSeq_comm rfl rfl rfl (congrArg Host.Outcome.next ?_)
    rw [fastTick_writeResult, fastTick_cfg]
  case filt x =>
    refine execSeq_comm rfl rfl rfl (congrArg Host.Outcome.next ?_)
    rw [fastTick_writeStable, fastTick_stable]
  case updt => exact absurd rfl hupdt
  case send => exact absurd rfl hsend

/-- `t` and `u` are one state but for their traces, which add to `old` one frame and at most one trigger: the
frame first in `t` and last in `u`. -/
def SameButForOrder (old : List OutEvent) (t u : State) : Prop :=
  u = { t with trace := u.trace } ∧
    ∃ trig : List OutEvent, (trig = [] ∨ trig = [.sampleTrig]) ∧
      t.trace = old ++ [.frame t.yr t.yl] ++ trig ∧ u.trace = old ++ trig ++ [.frame t.yr t.yl]

/-- A frame and a tick give one state in either order, but for the order of what they emit. -/
theorem sendFrame_fastTick (s : State) :
    SameButForOrder s.trace (fastTick (sendFrame s)) (sendFrame (fastTick s)) := by
  rw [fastTick_eq, fastTick_eq, sendFrame_eq, sendFrame_eq]
  by_cases hmatch : s.fcnt.toNat + 1 = s.cfg.data.fastDiv
  · rw [if_pos hmatch, if_pos hmatch]
    exact ⟨rfl, [.sampleTrig], .inr rfl, rfl, rfl⟩
  · rw [if_neg hmatch, if_neg hmatch]
    exact ⟨rfl, [], .inl rfl, by simp, by simp⟩

/-- SEND and UPDT are a frame after a computation that keeps the trace and that a tick commutes with; SEND computes
nothing. -/
theorem frame_op_computes {h : Instr} (hh : h = .send ∨ h = .updt) :
    ∃ f : State → State, ∀ s, exec h s = .next (sendFrame (f s)) ∧ (f s).trace = s.trace ∧
      fastTick (f s) = f (fastTick s) := by
  obtain rfl | rfl := hh
  · exact ⟨id, fun s => ⟨rfl, rfl, rfl⟩⟩
  · exact ⟨fun s => updateBytes (updateLevel s), fun s => ⟨rfl, rfl, fastTick_update s⟩⟩

/-- SEND or UPDT and TKF complete in either order, in one state but for the order of what they emit. -/
theorem frame_op_comm_tkf {h : Instr} (s : State) (hh : h = .send ∨ h = .updt) :
    ∃ t u, execSeq [h, .tkf] s = .next t ∧ execSeq [.tkf, h] s = .next u ∧ SameButForOrder s.trace t u := by
  obtain ⟨f, hf⟩ := frame_op_computes hh
  obtain ⟨hx, htrace, htick⟩ := hf s
  obtain ⟨hx', -⟩ := hf (fastTick s)
  have hsame := sendFrame_fastTick (f s)
  rw [htrace, htick] at hsame
  exact ⟨_, _, execSeq_pair hx rfl, execSeq_pair rfl hx', hsame⟩

/-- Settles O55: `host_comm_source`, and for TKF the two lemmas `silent_host_comm_tkf` and `frame_op_comm_tkf`; UPDT
writes no register but its own, so the conversion is in RAW in either order. -/
theorem hostOperationsCommuteWithTheOtherSources : Obligations.HostOperationsCommuteWithTheOtherSources := by
  refine ⟨fun h i s hh hi => ?_, fun h s hh => frame_op_comm_tkf s hh, fun c s => ⟨_, _, rfl, rfl, rfl, rfl⟩⟩
  have hhost : isHostOp h = true := by
    obtain rfl | rfl | rfl | ⟨x, rfl⟩ | ⟨ch, x, rfl⟩ := hh <;> rfl
  obtain hi | ⟨rfl, hsend, hupdt⟩ | ⟨⟨c, rfl⟩, hupdt⟩ := hi
  · simp only [List.mem_cons, List.not_mem_nil, or_false] at hi
    obtain rfl | rfl | rfl | rfl | rfl := hi <;> exact host_comm_source s hhost rfl (by simp) (by simp)
  · exact silent_host_comm_tkf s hhost hsend hupdt
  · exact host_comm_source s hhost rfl (by simp) fun h' => absurd h' hupdt

end Sys2Proof.Machine
end

section
/-! Proofs of the statements about the event words (spec/30_encoding.md): the decoder and the encoder agree, and the
words that are refused are the reserved ones. The fields are read as numbers: the opcode is the word divided by 4096,
and every must-be-zero field is a bound on the word modulo 4096. -/

namespace Sys2Proof

/-! ### The fields as numbers (R71, R72, R73, R75) -/

theorem toNat_opField (w : Word) : (opField w).toNat = w.toNat / 4096 := by
  rw [opField, BitVec.extractLsb'_toNat, Nat.shiftRight_eq_div_pow]
  omega

theorem toNat_x8 (w : Word) : (x8 w).toNat = w.toNat % 256 := by simp [x8]

theorem toNat_c10 (w : Word) : (c10 w).toNat = w.toNat % 1024 := by simp [c10]

theorem chBit_eq_decide (w : Word) : chBit w = decide (w.toNat / 256 % 2 = 1) :=
  Nat.testBit_eq_decide_div_mod_eq

theorem zero12_eq_zero_iff (w : Word) : zero12 w = 0#12 ↔ w.toNat % 4096 < 1 := by
  rw [← BitVec.toNat_inj, zero12, BitVec.extractLsb'_toNat, Nat.shiftRight_eq_div_pow, BitVec.toNat_ofNat]
  omega

theorem zero3_eq_zero_iff (w : Word) : zero3 w = 0#3 ↔ w.toNat % 4096 < 512 := by
  rw [← BitVec.toNat_inj, zero3, BitVec.extractLsb'_toNat, Nat.shiftRight_eq_div_pow, BitVec.toNat_ofNat]
  omega

theorem zero2_eq_zero_iff (w : Word) : zero2 w = 0#2 ↔ w.toNat % 4096 < 1024 := by
  rw [← BitVec.toNat_inj, zero2, BitVec.extractLsb'_toNat, Nat.shiftRight_eq_div_pow, BitVec.toNat_ofNat]
  omega

/-- FILT has its channel bit in the must-be-zero field too (R73). -/
theorem zero3_and_chBit_iff (w : Word) : (zero3 w = 0#3 ∧ chBit w = false) ↔ w.toNat % 4096 < 256 := by
  rw [zero3_eq_zero_iff, chBit_eq_decide, decide_eq_false_iff_not]
  omega

/-- The channel of a word is written back as bit 8. -/
theorem toNat_toBit_ofBit_chBit (w : Word) : (Channel.ofBit (chBit w)).toBit.toNat = w.toNat / 256 % 2 := by
  rw [chBit_eq_decide]
  obtain h | h := Nat.mod_two_eq_zero_or_one (w.toNat / 256) <;> rw [h] <;> rfl

/-! ### The words of the operations as numbers (R74, R84) -/

/-- A concatenation as a number. -/
theorem toNat_append_eq {m n : Nat} (a : BitVec m) (b : BitVec n) :
    (a ++ b).toNat = a.toNat * 2 ^ n + b.toNat := by
  rw [BitVec.toNat_append, ← Nat.shiftLeft_add_eq_or_of_lt b.isLt, Nat.shiftLeft_eq]

theorem toNat_encode (i : Instr) : (encode i).toNat = i.opcode.toNat * 4096 + i.operandBits.toNat :=
  toNat_append_eq _ _

theorem toNat_encode_lkup (ch : Channel) (x : Byte) :
    (encode (.lkup ch x)).toNat = 0x1000 + ch.toBit.toNat * 0x100 + x.toNat := by
  rw [toNat_encode]
  simp only [Instr.opcode, Instr.operandBits, toNat_append_eq, BitVec.toNat_ofNat]
  omega

theorem toNat_encode_filt (x : Byte) : (encode (.filt x)).toNat = 0x2000 + x.toNat := by
  rw [toNat_encode]
  simp only [Instr.opcode, Instr.operandBits, toNat_append_eq, BitVec.toNat_ofNat]
  omega

theorem toNat_encode_smpl (c : BitVec 10) : (encode (.smpl c)).toNat = 0x4000 + c.toNat := by
  rw [toNat_encode]
  simp only [Instr.opcode, Instr.operandBits, toNat_append_eq, BitVec.toNat_ofNat]
  omega

/-- A word given as a number is the word of an operation. -/
theorem ofNat_eq_encode {i : Instr} {n : Nat} (h : (encode i).toNat = n) : BitVec.ofNat 16 n = encode i := by
  rw [← h, BitVec.ofNat_toNat, BitVec.setWidth_eq]

/-! ### What decoding answers (R79, R80, R81) -/

/-- How many words of an opcode name an operation: 0 for the reserved opcodes, otherwise what the must-be-zero field of
the format leaves (R80, R81). -/
def legalWords (op : Nat) : Nat :=
  if op = 1 then 512 else if op = 2 then 256 else if op = 4 then 1024 else if op < 12 then 1 else 0

theorem legalWords_of_formatZ {op : Nat} (h : op ∉ [1, 2, 4]) (hop : op < 12) : legalWords op = 1 := by
  simp only [List.mem_cons, List.not_mem_nil, or_false, not_or] at h
  simp [legalWords, h, hop]

/-- A legal word is below the reserved opcodes. -/
theorem lt_of_legal {n : Nat} (h : n % 4096 < legalWords (n / 4096)) : n < 0xC000 := by
  by_contra hge
  have hnone : legalWords (n / 4096) = 0 := by
    unfold legalWords
    rw [if_neg, if_neg, if_neg, if_neg] <;> omega
  omega

/-- What the decoder may answer on `w`: each answer with the condition on the number of the word under which it is
given. -/
inductive DecodesTo (w : Word) : Except Reserved Instr → Prop where
  | reservedOpcode (hop : 0xC000 ≤ w.toNat) : DecodesTo w (.error .opcode)
  | reservedField (hop : w.toNat < 0xC000) (hfield : legalWords (w.toNat / 4096) ≤ w.toNat % 4096) :
      DecodesTo w (.error .mustBeZero)
  | operation (i : Instr) (hfield : w.toNat % 4096 < legalWords (w.toNat / 4096)) (hword : encode i = w) :
      DecodesTo w (.ok i)

/-- The form every format has: the check of a must-be-zero field, then the operands. -/
theorem decodesTo_ite {w : Word} {i : Instr} {zero : Prop} [Decidable zero] (hop : w.toNat < 0xC000)
    (hzero : zero ↔ w.toNat % 4096 < legalWords (w.toNat / 4096)) (hword : zero → encode i = w) :
    DecodesTo w (if zero then .ok i else .error .mustBeZero) := by
  split
  · next hz => exact .operation i (hzero.mp hz) (hword hz)
  · next hz => exact .reservedField hop (Nat.le_of_not_lt fun h => hz (hzero.mpr h))

theorem toNat_opcode_lt (i : Instr) : i.opcode.toNat < 12 := by
  cases i <;> simp only [Instr.opcode] <;> decide

/-- Format Z (R72): the one word of the opcode. -/
theorem decodesTo_decodeZ {w : Word} {i : Instr} (hop : w.toNat / 4096 = i.opcode.toNat)
    (hlegal : legalWords i.opcode.toNat = 1) (hbits : i.operandBits = 0#12) : DecodesTo w (decodeZ w i) := by
  have hword : zero12 w = 0#12 → encode i = w := by
    rw [zero12_eq_zero_iff]
    intro hz
    apply BitVec.eq_of_toNat_eq
    rw [toNat_encode, hbits, ← hop, BitVec.toNat_ofNat]
    omega
  have hlt := toNat_opcode_lt i
  refine decodesTo_ite (by omega) ?_ hword
  rw [hop, hlegal, zero12_eq_zero_iff]

theorem decodesTo_decodeLkup {w : Word} (hop : w.toNat / 4096 = 1) : DecodesTo w (decodeLkup w) := by
  refine decodesTo_ite (by omega) (by rw [hop]; exact zero3_eq_zero_iff w) fun hz => ?_
  rw [zero3_eq_zero_iff] at hz
  apply BitVec.eq_of_toNat_eq
  rw [toNat_encode_lkup, toNat_toBit_ofBit_chBit, toNat_x8]
  omega

theorem decodesTo_decodeFilt {w : Word} (hop : w.toNat / 4096 = 2) : DecodesTo w (decodeFilt w) := by
  refine decodesTo_ite (by omega) (by rw [hop]; exact zero3_and_chBit_iff w) fun hz => ?_
  rw [zero3_and_chBit_iff] at hz
  apply BitVec.eq_of_toNat_eq
  rw [toNat_encode_filt, toNat_x8]
  omega

theorem decodesTo_decodeSmpl {w : Word} (hop : w.toNat / 4096 = 4) : DecodesTo w (decodeSmpl w) := by
  refine decodesTo_ite (by omega) (by rw [hop]; exact zero2_eq_zero_iff w) fun hz => ?_
  rw [zero2_eq_zero_iff] at hz
  apply BitVec.eq_of_toNat_eq
  rw [toNat_encode_smpl, toNat_c10]
  omega

/-- Decoding is total, and this is what it answers (R79); the cases stand in the order of the opcode map. -/
theorem decodesTo_decode (w : Word) : DecodesTo w (decode w) := by
  unfold decode
  rw [toNat_opField]
  split
  case h_2 hop => exact decodesTo_decodeLkup hop
  case h_3 hop => exact decodesTo_decodeFilt hop
  case h_5 hop => exact decodesTo_decodeSmpl hop
  case h_13 =>
    simp only [imp_false] at *
    exact .reservedOpcode (by omega)
  all_goals exact decodesTo_decodeZ ‹_› rfl rfl

section
variable {w : Word}

theorem decode_of_reservedOpcode (hop : 0xC000 ≤ w.toNat) : decode w = .error .opcode := by
  have h := decodesTo_decode w
  generalize decode w = answer at h
  cases h with
  | reservedOpcode _ => rfl
  | reservedField hlt _ => omega
  | operation _ hfield _ => exact absurd (lt_of_legal hfield) (by omega)

theorem decode_of_reservedField (hop : w.toNat < 0xC000)
    (hfield : legalWords (w.toNat / 4096) ≤ w.toNat % 4096) : decode w = .error .mustBeZero := by
  have h := decodesTo_decode w
  generalize decode w = answer at h
  cases h with
  | reservedOpcode hge => omega
  | reservedField _ _ => rfl
  | operation _ hlegal _ => omega

/-- A word names an operation exactly when it is one of the legal words of its opcode. -/
theorem exists_decode_eq_ok_iff :
    (∃ i, decode w = .ok i) ↔ w.toNat % 4096 < legalWords (w.toNat / 4096) := by
  have h := decodesTo_decode w
  generalize decode w = answer at h
  cases h with
  | reservedOpcode hge => exact ⟨nofun, fun hlegal => absurd (lt_of_legal hlegal) (by omega)⟩
  | reservedField _ hfield => exact ⟨nofun, fun hlegal => absurd hlegal (by omega)⟩
  | operation i hlegal _ => exact ⟨fun _ => hlegal, fun _ => ⟨i, rfl⟩⟩

end

/-! ### The round trip (R74 to R79) -/

/-- Settles O11: an operation is answered only on its own word. -/
theorem legalWordIsTheEncodingOfItsOperation : Obligations.LegalWordIsTheEncodingOfItsOperation := by
  intro w i hd
  have h := decodesTo_decode w
  rw [hd] at h
  cases h with
  | operation _ _ hword => exact hword

/-- The channel bit of the word of LKUP is its channel. -/
theorem ofBit_chBit_encode_lkup (ch : Channel) (x : Byte) : Channel.ofBit (chBit (encode (.lkup ch x))) = ch := by
  rw [chBit_eq_decide, toNat_encode_lkup]
  cases ch
  · rw [decide_eq_false (by simp only [Channel.toBit, BitVec.toNat_ofNat]; omega)]; rfl
  · rw [decide_eq_true (by simp only [Channel.toBit, BitVec.toNat_ofNat]; omega)]; rfl

theorem decode_encode_lkup (ch : Channel) (x : Byte) : decode (encode (.lkup ch x)) = .ok (.lkup ch x) := by
  have hword := toNat_encode_lkup ch x
  have hzero : zero3 (encode (.lkup ch x)) = 0#3 := by rw [zero3_eq_zero_iff]; omega
  have hx : x8 (encode (.lkup ch x)) = x := BitVec.eq_of_toNat_eq (by rw [toNat_x8]; omega)
  have hop : opField (encode (.lkup ch x)) = 1#4 := (Laws.EncodeFields.lkup ch x).1
  simp only [decode, hop, BitVec.reduceToNat, decodeLkup, if_pos hzero, ofBit_chBit_encode_lkup, hx]

theorem decode_encode_filt (x : Byte) : decode (encode (.filt x)) = .ok (.filt x) := by
  have hword := toNat_encode_filt x
  have hzero : zero3 (encode (.filt x)) = 0#3 ∧ chBit (encode (.filt x)) = false := by
    rw [zero3_and_chBit_iff]; omega
  have hx : x8 (encode (.filt x)) = x := BitVec.eq_of_toNat_eq (by rw [toNat_x8]; omega)
  have hop : opField (encode (.filt x)) = 2#4 := (Laws.EncodeFields.filt x).1
  simp only [decode, hop, BitVec.reduceToNat, decodeFilt, if_pos hzero, hx]

theorem decode_encode_smpl (c : BitVec 10) : decode (encode (.smpl c)) = .ok (.smpl c) := by
  have hword := toNat_encode_smpl c
  have hzero : zero2 (encode (.smpl c)) = 0#2 := by rw [zero2_eq_zero_iff]; omega
  have hc : c10 (encode (.smpl c)) = c := BitVec.eq_of_toNat_eq (by rw [toNat_c10]; omega)
  have hop : opField (encode (.smpl c)) = 4#4 := (Laws.EncodeFields.smpl c).1
  simp only [decode, hop, BitVec.reduceToNat, decodeSmpl, if_pos hzero, hc]

/-- The word of an operation decodes to it: in format Z by evaluation, in the others the must-be-zero field is zero and
the operand fields are the operands. -/
theorem decode_encode (i : Instr) : decode (encode i) = .ok i := by
  cases i
  case lkup ch x => exact decode_encode_lkup ch x
  case filt x => exact decode_encode_filt x
  case smpl c => exact decode_encode_smpl c
  all_goals rfl

/-- The words that decode to an operation. -/
theorem decode_eq_ok_iff (w : Word) (i : Instr) : decode w = .ok i ↔ encode i = w :=
  ⟨legalWordIsTheEncodingOfItsOperation w i, fun h => h ▸ decode_encode i⟩

/-- Settles O10: a word of 16 bits is its own table word, and `decode_encode`. -/
theorem decodeOfEncodeIsTheOperation : Obligations.DecodeOfEncodeIsTheOperation := by
  intro i
  have htable : BitVec.ofNat 16 ((encode i).toNat % 2 ^ 16) = encode i := by
    rw [Nat.mod_eq_of_lt (encode i).isLt]
    exact ofNat_eq_encode rfl
  refine ⟨decode_encode i, ?_⟩
  simp only [decodeTableWord, htable, decode_encode]

/-- A word given as the number of an operation's word decodes to that operation. -/
theorem decode_ofNat {i : Instr} {n : Nat} (h : (encode i).toNat = n) : decode (BitVec.ofNat 16 n) = .ok i := by
  rw [ofNat_eq_encode h, decode_encode]

/-- Settles O13: the words without operand by evaluation, the others by the number of the operation's word. -/
theorem writtenWordsDecodeWithTheirOperands : Obligations.WrittenWordsDecodeWithTheirOperands := by
  refine ⟨rfl, rfl, rfl, rfl, rfl, rfl, rfl, rfl, rfl, fun x => ⟨?_, ?_, ?_⟩, fun c => ?_⟩
  · exact decode_ofNat (toNat_encode_lkup .right x)
  · exact decode_ofNat (toNat_encode_lkup .left x)
  · exact decode_ofNat (toNat_encode_filt x)
  · exact decode_ofNat (toNat_encode_smpl c)

/-- Settles O14, by evaluating the decoder on the ten words. -/
theorem sampleWordsDecodeAsWritten : Obligations.SampleWordsDecodeAsWritten := by
  unfold Obligations.SampleWordsDecodeAsWritten
  decide

/-! ### The opcode map (R74) -/

/-- An operation stands in a word of its opcode. -/
theorem toNat_opcode_of_decode {w : Word} {i : Instr} (h : decode w = .ok i) : i.opcode.toNat = w.toNat / 4096 := by
  rw [decode_eq_ok_iff] at h
  have := i.operandBits.isLt
  rw [← h, toNat_encode]
  omega

/-- The mask of a row of the map leaves out the low bits that tell the legal words of its opcode apart. -/
theorem opcodeRows_mask : ∀ r ∈ opcodeRows, ∃ k ∈ [0, 8, 9, 10], r.mask = BitVec.allOnes 16 <<< k ∧
    2 ^ k = legalWords (r.word.toNat / 4096) ∧ r.word.toNat % 4096 = 0 := by decide

/-- Such a mask rounds down to a multiple of a power of two. -/
theorem toNat_and_allOnes_shiftLeft {n : Nat} (w : BitVec n) (k : Nat) :
    (w &&& (BitVec.allOnes n <<< k)).toNat = w.toNat / 2 ^ k * 2 ^ k := by
  have hclear : w &&& (BitVec.allOnes n <<< k) = (w >>> k) <<< k := by
    ext j hj
    by_cases hlow : j < k
    · simp [hlow]
    · simp [hlow, show k + (j - k) = j by omega, BitVec.getLsbD_eq_getElem hj]
  have hle : w.toNat / 2 ^ k * 2 ^ k ≤ w.toNat := Nat.div_mul_le_self _ _
  rw [hclear, BitVec.toNat_shiftLeft, BitVec.toNat_ushiftRight, Nat.shiftRight_eq_div_pow, Nat.shiftLeft_eq,
    Nat.mod_eq_of_lt (hle.trans_lt w.isLt)]

/-- A row requests the legal words of its opcode. -/
theorem requestedBy_iff {r : OpRow} (hr : r ∈ opcodeRows) (w : Word) : r.requestedBy w = true ↔
    w.toNat / 4096 = r.word.toNat / 4096 ∧ w.toNat % 4096 < legalWords (w.toNat / 4096) := by
  obtain ⟨k, hk, hmask, hlegal, hzero⟩ := opcodeRows_mask r hr
  have hmul : r.requestedBy w = true ↔ w.toNat / 2 ^ k * 2 ^ k = r.word.toNat := by
    rw [OpRow.requestedBy, hmask, beq_iff_eq, ← BitVec.toNat_inj, toNat_and_allOnes_shiftLeft]
  have hsame : w.toNat / 2 ^ k * 2 ^ k = r.word.toNat ↔
      w.toNat / 4096 = r.word.toNat / 4096 ∧ w.toNat % 4096 < 2 ^ k := by
    simp only [List.mem_cons, List.not_mem_nil, or_false] at hk
    obtain rfl | rfl | rfl | rfl := hk <;> omega
  rw [hmul, hsame, hlegal]
  exact and_congr_right fun h => by rw [h]

/-- A row of the map is the row of an operation when their opcodes are equal. -/
theorem mnemonic_eq_iff (i : Instr) :
    ∀ r ∈ opcodeRows, i.mnemonic = r.mnemonic ↔ i.opcode.toNat = r.word.toNat / 4096 := by
  cases i <;> simp only [Instr.mnemonic, Instr.opcode] <;> decide

theorem exists_row (i : Instr) : ∃ r ∈ opcodeRows, i.mnemonic = r.mnemonic := by
  cases i <;> simp only [Instr.mnemonic] <;> decide

theorem opcodeRows_inj : ∀ r ∈ opcodeRows, ∀ q ∈ opcodeRows,
    r.word.toNat / 4096 = q.word.toNat / 4096 → r = q := by decide

/-- Two rows of one opcode are one row. -/
theorem eq_of_requestedBy {r q : OpRow} {w : Word} (hr : r ∈ opcodeRows) (hq : q ∈ opcodeRows)
    (hrw : r.requestedBy w = true) (hqw : q.requestedBy w = true) : r = q := by
  obtain ⟨hro, -⟩ := (requestedBy_iff hr w).mp hrw
  obtain ⟨hqo, -⟩ := (requestedBy_iff hq w).mp hqw
  exact opcodeRows_inj r hr q hq (hro.symm.trans hqo)

/-- A row requests the words that decode to an operation with its mnemonic. -/
theorem requestedBy_iff_decode {r : OpRow} (hr : r ∈ opcodeRows) (w : Word) :
    r.requestedBy w = true ↔ ∃ i, decode w = .ok i ∧ i.mnemonic = r.mnemonic := by
  rw [requestedBy_iff hr]
  constructor
  · rintro ⟨hop, hlegal⟩
    obtain ⟨i, hd⟩ := exists_decode_eq_ok_iff.mpr hlegal
    exact ⟨i, hd, (mnemonic_eq_iff i r hr).mpr ((toNat_opcode_of_decode hd).trans hop)⟩
  · rintro ⟨i, hd, hname⟩
    have hop : i.opcode.toNat = r.word.toNat / 4096 := (mnemonic_eq_iff i r hr).mp hname
    exact ⟨(toNat_opcode_of_decode hd).symm.trans hop, exists_decode_eq_ok_iff.mp ⟨i, hd⟩⟩

/-- No row requests exactly the words that the decoder rejects, because every operation has a row. -/
theorem no_row_iff_decode_error (w : Word) :
    (∀ r ∈ opcodeRows, r.requestedBy w = false) ↔ ∃ why, decode w = .error why := by
  constructor
  · intro hnone
    cases hd : decode w with
    | error why => exact ⟨why, rfl⟩
    | ok i =>
      obtain ⟨r, hr, hname⟩ := exists_row i
      have hreq : r.requestedBy w = true := (requestedBy_iff_decode hr w).mpr ⟨i, hd, hname⟩
      rw [hnone r hr] at hreq
      cases hreq
  · rintro ⟨why, hd⟩ r hr
    rw [Bool.eq_false_iff, Ne, requestedBy_iff_decode hr, hd]
    exact nofun

/-- Settles O12: a row requests the legal words of its opcode, and the opcode tells the row. -/
theorem decoderAgreesWithTheOpcodeMap : Obligations.DecoderAgreesWithTheOpcodeMap :=
  fun w => ⟨fun _ hr => requestedBy_iff_decode hr w, fun _ hr _ hq => eq_of_requestedBy hr hq,
    no_row_iff_decode_error w⟩

end Sys2Proof

namespace Sys2Proof.Machine

/-! ### Reserved words are refused (R80, R81, U1) -/

/-- A step with a reserved word next is refused by the decoder's reason. -/
theorem step_reserved {s : State} {e : Event} {rest : List Event} {why : Reserved} (he : s.events = e :: rest)
    (hd : decode e.word = .error why) : step s = .refused (Refusal.ofReserved e.word why) := by
  unfold step
  rw [he]
  simp only [hd]

section
variable {s : State} {e : Event} {rest : List Event} (he : s.events = e :: rest)
include he

theorem step_reservedOpcode (hop : 0xC000 ≤ e.word.toNat) : step s = .refused (.reservedOpcode e.word) :=
  step_reserved he (decode_of_reservedOpcode hop)

theorem step_reservedField {k : Nat} (hop : e.word.toNat < 0xC000) (hk : legalWords (e.word.toNat / 4096) = k)
    (hfield : k ≤ e.word.toNat % 4096) : step s = .refused (.reservedField e.word) :=
  step_reserved he (decode_of_reservedField hop (hk ▸ hfield))

theorem step_legal {k : Nat} (hk : legalWords (e.word.toNat / 4096) = k) (hlegal : e.word.toNat % 4096 < k) :
    ∃ t, step s = .next t := by
  obtain ⟨i, hd⟩ := exists_decode_eq_ok_iff.mpr (hk ▸ hlegal)
  rw [step_present he hd]
  exact exec_next i _

end

/-- Settles O8: each clause is one of the three answers, with the number of legal words of the opcode in it. -/
theorem stepRefusesExactlyTheReservedWords : Obligations.StepRefusesExactlyTheReservedWords := by
  intro s e rest he
  have hlkup : e.word.toNat / 4096 = 1 → legalWords (e.word.toNat / 4096) = 512 := congrArg legalWords
  have hfilt : e.word.toNat / 4096 = 2 → legalWords (e.word.toNat / 4096) = 256 := congrArg legalWords
  have hsmpl : e.word.toNat / 4096 = 4 → legalWords (e.word.toNat / 4096) = 1024 := congrArg legalWords
  refine ⟨step_reservedOpcode he, fun hlt hop hlow => ?_, fun hop hlow => ?_, fun hop hlow => ?_, fun hop hlow => ?_,
    fun hlt hop hlow => ?_, fun hop hlow => ?_, fun hop hlow => ?_, fun hop hlow => ?_⟩
  · exact step_reservedField he hlt (legalWords_of_formatZ hop (by omega)) (by omega)
  · exact step_reservedField he (by omega) (hlkup hop) hlow
  · exact step_reservedField he (by omega) (hfilt hop) hlow
  · exact step_reservedField he (by omega) (hsmpl hop) hlow
  · exact step_legal he (legalWords_of_formatZ hop (by omega)) (by omega)
  · exact step_legal he (hlkup hop) hlow
  · exact step_legal he (hfilt hop) hlow
  · exact step_legal he (hsmpl hop) hlow

/-! ### The conversion and the sample slot (R78, R150, R151) -/

theorem toNat_leftJustify (c : BitVec 10) : (leftJustify c).toNat = c.toNat * 64 := by
  rw [leftJustify, toNat_append_eq]
  rfl

/-- The conversion stands above the six zeros. -/
theorem leftJustify_high (c : BitVec 10) : (leftJustify c).extractLsb' 6 10 = c :=
  BitVec.extractLsb'_append_eq_left

/-- The level is the conversion without its low two bits. -/
theorem level8_leftJustify (c : BitVec 10) : level8 (leftJustify c) = c.extractLsb' 2 8 :=
  BitVec.extractLsb'_append_eq_of_le (by omega)

/-- Below the level stand the low two bits of the conversion. -/
theorem leftJustify_below_level (c : BitVec 10) : (leftJustify c).extractLsb' 6 2 = c.extractLsb' 0 2 :=
  BitVec.extractLsb'_append_eq_of_le (by omega)

theorem toNat_level8_leftJustify (c : BitVec 10) : (level8 (leftJustify c)).toNat = c.toNat / 4 := by
  rw [level8_leftJustify, BitVec.extractLsb'_toNat, Nat.shiftRight_eq_div_pow]
  omega

/-- Settles O32: the word of SMPL is 0x4000 and the conversion, and RAW takes it left-justified. -/
theorem smplLeftJustifiesTheConversion : Obligations.SmplLeftJustifiesTheConversion := by
  refine ⟨fun w c hd => ?_, fun c => decode_ofNat (toNat_encode_smpl c), fun c s => ?_⟩
  · rw [decode_eq_ok_iff] at hd
    have hword := toNat_encode_smpl c
    rw [hd] at hword
    omega
  · exact ⟨s.writeRaw (leftJustify c), rfl, rfl, toNat_leftJustify c, leftJustify_high c, leftJustify_low c,
      level8_leftJustify c, toNat_level8_leftJustify c⟩

/-! ### The pseudo-operations (R85) -/

/-- A conversion whose low two bits are zero. -/
theorem toNat_smpl8_operand {v : Nat} (hv : v ≤ 255) : (BitVec.ofNat 10 (v * 4)).toNat = v * 4 := by
  rw [BitVec.toNat_ofNat, Nat.mod_eq_of_lt (by omega)]

/-- SMPL8 is SMPL with four times the operand, and is in range when its own operand is. -/
theorem assemble_smpl8 {v : Nat} (hv : v ≤ 255) :
    AsmLine.assemble (.smpl8 v) = AsmLine.assemble (.smpl (v * 4)) := by
  have hc : v * 4 ≤ 1023 := by omega
  simp only [AsmLine.assemble, AsmLine.wf, AsmLine.expand, hv, hc]

theorem assemble_smpl8_word {v : Nat} (hv : v ≤ 255) :
    AsmLine.assemble (.smpl8 v) = some [BitVec.ofNat 16 (0x4000 + v * 4)] := by
  have hword : (encode (.smpl (BitVec.ofNat 10 (v * 4)))).toNat = 0x4000 + v * 4 := by
    rw [toNat_encode_smpl, toNat_smpl8_operand hv]
  rw [ofNat_eq_encode hword]
  simp [AsmLine.assemble, AsmLine.wf, AsmLine.expand, hv]

/-- What SMPL8 delivers: the operand as the level, with zeros below it. -/
theorem smpl8_delivers {v : Nat} (hv : v ≤ 255) (s : State) :
    ∃ t, execSeq (AsmLine.expand (.smpl8 v)) s = .next t ∧ (level8 t.raw).toNat = v ∧
      t.raw.extractLsb' 6 2 = 0#2 := by
  have hc := toNat_smpl8_operand hv
  refine ⟨s.writeRaw (leftJustify (BitVec.ofNat 10 (v * 4))), rfl, ?_, ?_⟩
  · rw [State.writeRaw_raw, toNat_level8_leftJustify, hc]
    omega
  · rw [State.writeRaw_raw, leftJustify_below_level, ← BitVec.toNat_inj, BitVec.extractLsb'_toNat, hc]
    simp

/-- A line that repeats one operation is that many words of it. -/
theorem assemble_replicate {l : AsmLine} {k : Nat} {i : Instr} (hwf : l.wf = true)
    (hexpand : l.expand = List.replicate k i) : l.assemble = some (List.replicate k (encode i)) := by
  rw [AsmLine.assemble, if_pos hwf, hexpand, List.map_replicate]

/-- Settles O15: the lines of SMPL8 as above, LKR and LKL by their definition, and the repetitions. -/
theorem pseudoOperationsExpand : Obligations.PseudoOperationsExpand :=
  ⟨fun _ hv => ⟨assemble_smpl8 hv, assemble_smpl8_word hv, rfl, rfl, smpl8_delivers hv⟩,
    fun _ => ⟨assemble_replicate (i := .tkf) rfl rfl, assemble_replicate (i := .tks) rfl rfl,
      assemble_replicate (i := .slow) rfl rfl, assemble_replicate (i := .scan) rfl rfl,
      assemble_replicate (i := .etck) rfl rfl⟩⟩

end Sys2Proof.Machine
end

section
/-! Proofs of the statements about the Interpolation Engine (spec/40_interpolation.md). Every input is below the table,
above it, or on one segment, and there `lookupInt` is the interpolation of that segment, its left end included; what
remains is arithmetic of the truncated quotient. -/

namespace Sys2Proof.Machine

/-! ### The segment that holds an input (R100, R108) -/

/-- The segment from `i` to `i + 1` is in the table and holds `x`, its left end included. -/
structure OnSegment (c : Config) (i x : Nat) : Prop where
  inTable : i + 1 < tableSize c
  lower : bpIn c i ≤ x
  upper : x < bpIn c (i + 1)

section
variable {c : Config} {i x : Nat}

theorem OnSegment.nonempty (h : OnSegment c i x) : bpIn c i < bpIn c (i + 1) := h.lower.trans_lt h.upper

theorem OnSegment.lt_tableSize (h : OnSegment c i x) : i < tableSize c := Nat.lt_of_succ_lt h.inTable

theorem OnSegment.below_last (h : OnSegment c i x) : x < bpIn c (tableSize c - 1) :=
  h.upper.trans_le (bpIn_mono c (Nat.le_sub_one_of_lt h.inTable) (Nat.sub_one_lt_of_lt h.lt_tableSize))

/-- Past a breakpoint of the table an input is past the first. -/
theorem first_lt_of_bpIn_lt (hi : i < tableSize c) (hlt : bpIn c i < x) : bpIn c 0 < x :=
  (bpIn_mono c (Nat.zero_le i) hi).trans_lt hlt

/-- Inside the table the scan ends on a segment that holds the input (R102). -/
theorem onSegment_scanDown (h0 : bpIn c 0 < x) (hlast : x < bpIn c (tableSize c - 1)) :
    OnSegment c (scanDown c x (tableSize c - 1)) x := by
  have hlower := bpIn_scanDown c x (tableSize c - 1) h0.le
  have hne : scanDown c x (tableSize c - 1) ≠ tableSize c - 1 := fun heq => by
    rw [heq] at hlower
    exact absurd hlower hlast.not_ge
  have hle := scanDown_le c x (tableSize c - 1)
  exact ⟨by omega, hlower, lt_bpIn_of_scanDown_lt c x _ _ (Nat.lt_succ_self _) (by omega)⟩

/-- Where an input lies: at or below the first breakpoint, at or above the last, or on a segment. -/
theorem input_cases (c : Config) (x : Nat) : x ≤ bpIn c 0 ∨ (bpIn c 0 < x ∧ bpIn c (tableSize c - 1) ≤ x) ∨
    (bpIn c 0 < x ∧ ∃ i, OnSegment c i x) := by
  obtain hlow | h0 := le_or_gt x (bpIn c 0)
  · exact .inl hlow
  obtain hhigh | hlast := le_or_gt (bpIn c (tableSize c - 1)) x
  · exact .inr (.inl ⟨h0, hhigh⟩)
  · exact .inr (.inr ⟨h0, _, onSegment_scanDown h0 hlast⟩)

/-! ### The interpolation on one segment (R101) -/

theorem interpolate_left (c : Config) (i : Nat) : interpolate c i (bpIn c i) = bpOut c i := by simp [interpolate]

theorem interpolate_right (h : bpIn c i < bpIn c (i + 1)) : interpolate c i (bpIn c (i + 1)) = bpOut c (i + 1) := by
  simp only [interpolate]
  rw [Int.mul_tdiv_cancel _ (by omega)]
  omega

theorem interpolate_mono (h : bpIn c i < bpIn c (i + 1)) (hout : bpOut c i ≤ bpOut c (i + 1)) {y : Nat}
    (hxy : x ≤ y) : interpolate c i x ≤ interpolate c i y := by
  have hnum : ((bpOut c (i + 1) : Int) - bpOut c i) * ((x : Int) - bpIn c i) ≤
      ((bpOut c (i + 1) : Int) - bpOut c i) * ((y : Int) - bpIn c i) :=
    mul_le_mul_of_nonneg_left (by omega) (by omega)
  exact Int.add_le_add_left (Int.tdiv_le_tdiv (by omega) hnum) _

theorem interpolate_anti (h : bpIn c i < bpIn c (i + 1)) (hout : bpOut c (i + 1) ≤ bpOut c i) {y : Nat}
    (hxy : x ≤ y) : interpolate c i y ≤ interpolate c i x := by
  have hnum : ((bpOut c (i + 1) : Int) - bpOut c i) * ((y : Int) - bpIn c i) ≤
      ((bpOut c (i + 1) : Int) - bpOut c i) * ((x : Int) - bpIn c i) :=
    mul_le_mul_of_nonpos_left (by omega) (by omega)
  exact Int.add_le_add_left (Int.tdiv_le_tdiv (by omega) hnum) _

/-- The interpolation stays between its values at the two ends, because it is monotone. -/
theorem interpolate_between (h : OnSegment c i x) :
    min (bpOut c i : Int) (bpOut c (i + 1)) ≤ interpolate c i x ∧
      interpolate c i x ≤ max (bpOut c i : Int) (bpOut c (i + 1)) := by
  have hleft := interpolate_left c i
  have hright := interpolate_right h.nonempty
  obtain hrise | hfall := Nat.le_total (bpOut c i) (bpOut c (i + 1))
  · have hlo := interpolate_mono h.nonempty hrise h.lower
    have hhi := interpolate_mono h.nonempty hrise h.upper.le
    omega
  · have hlo := interpolate_anti h.nonempty hfall h.lower
    have hhi := interpolate_anti h.nonempty hfall h.upper.le
    omega

/-- A number times a proper fraction, truncated, is smaller in magnitude (R101). -/
theorem abs_tdiv_mul_lt {diff dist den : Int} (hdiff : diff ≠ 0) (hpos : 0 ≤ dist) (hlt : dist < den) :
    |Int.tdiv (diff * dist) den| < |diff| := by
  have habs : dist.natAbs < den.natAbs := by omega
  have hnum : diff.natAbs * dist.natAbs < den.natAbs * diff.natAbs := by
    rw [mul_comm den.natAbs]
    exact Nat.mul_lt_mul_of_pos_left habs (Int.natAbs_pos.mpr hdiff)
  rw [Int.abs_eq_natAbs, Int.abs_eq_natAbs, Int.natAbs_tdiv, Int.natAbs_mul, Nat.cast_lt]
  exact Nat.div_lt_of_lt_mul hnum

/-- Of a numerator that is not positive the truncated quotient is the least integer not below the exact one (R107). -/
theorem tdiv_rounds_up {num den : Int} (hnum : num ≤ 0) (hden : 0 < den) :
    num ≤ Int.tdiv num den * den ∧ (Int.tdiv num den - 1) * den < num := by
  have hdiv := Int.tdiv_mul_add_tmod num den
  have hrem := Int.lt_tmod_of_pos num hden
  have hneg : 0 ≤ Int.tmod (-num) den := Int.tmod_nonneg den (by omega)
  rw [Int.neg_tmod] at hneg
  rw [sub_mul, one_mul]
  omega

/-! ### `lookupInt`, case by case (R100) -/

theorem lookupInt_of_le_first (h : x ≤ bpIn c 0) : lookupInt c x = bpOut c 0 := if_pos h

theorem lookupInt_of_last_le (h0 : bpIn c 0 < x) (h : bpIn c (tableSize c - 1) ≤ x) :
    lookupInt c x = bpOut c (tableSize c - 1) := by
  rw [lookupInt, if_neg h0.not_ge, if_pos h]

/-- On a segment the value is the interpolation; at its left end, where the exact breakpoint is answered, too. -/
theorem lookupInt_of_onSegment (h0 : bpIn c 0 < x) (h : OnSegment c i x) : lookupInt c x = interpolate c i x := by
  rw [lookupInt, if_neg h0.not_ge, if_neg h.below_last.not_ge, scanDown_eq c x i h.inTable h.lower h.upper]
  exact ite_eq_right_iff.mpr fun heq => by rw [heq, interpolate_left]

/-- The exact result is a byte (R102). -/
theorem lookupInt_range (c : Config) (x : Nat) : 0 ≤ lookupInt c x ∧ lookupInt c x ≤ 255 := by
  obtain hlow | ⟨h0, hhigh⟩ | ⟨h0, i, hseg⟩ := input_cases c x
  · have := bpOut_le c 0
    rw [lookupInt_of_le_first hlow]
    omega
  · have := bpOut_le c (tableSize c - 1)
    rw [lookupInt_of_last_le h0 hhigh]
    omega
  · have hbetween := interpolate_between hseg
    have := bpOut_le c i
    have := bpOut_le c (i + 1)
    rw [lookupInt_of_onSegment h0 hseg]
    omega

/-- The byte loses nothing of the exact result (R102). -/
theorem toNat_lookup (c : Config) (x : Nat) : ((lookup c x).toNat : Int) = lookupInt c x := by
  have := lookupInt_range c x
  rw [lookup, BitVec.toNat_ofInt]
  omega

/-! ### `lookup`, case by case (R100) -/

theorem lookup_of_lookupInt {n : Nat} (h : lookupInt c x = n) : (lookup c x).toNat = n :=
  Int.ofNat_inj.mp ((toNat_lookup c x).trans h)

theorem lookup_of_le_first (h : x ≤ bpIn c 0) : (lookup c x).toNat = bpOut c 0 :=
  lookup_of_lookupInt (lookupInt_of_le_first h)

theorem lookup_of_last_le (h0 : bpIn c 0 < x) (h : bpIn c (tableSize c - 1) ≤ x) :
    (lookup c x).toNat = bpOut c (tableSize c - 1) :=
  lookup_of_lookupInt (lookupInt_of_last_le h0 h)

/-- The greatest index with the input `x` answers. -/
theorem lookup_of_breakpoint (h0 : bpIn c 0 < x) (hi : i + 1 < tableSize c) (heq : bpIn c i = x)
    (hhi : x < bpIn c (i + 1)) : (lookup c x).toNat = bpOut c i := by
  apply lookup_of_lookupInt
  rw [lookupInt_of_onSegment h0 ⟨hi, heq.le, hhi⟩, ← heq, interpolate_left]

theorem lookup_of_segment (hi : i + 1 < tableSize c) (hlo : bpIn c i < x) (hhi : x < bpIn c (i + 1)) :
    ((lookup c x).toNat : Int) = interpolate c i x :=
  (toNat_lookup c x).trans
    (lookupInt_of_onSegment (first_lt_of_bpIn_lt (by omega) hlo) ⟨hi, hlo.le, hhi⟩)

end

/-- Settles O16: one lemma per clause. -/
theorem lookupClampsMatchesAndInterpolates : Obligations.LookupClampsMatchesAndInterpolates :=
  fun _ _ => ⟨lookup_of_le_first, lookup_of_last_le, fun _ hi =>
    ⟨fun h0 heq hhi => lookup_of_breakpoint h0 hi heq hhi, fun hlo hhi => lookup_of_segment hi hlo hhi⟩⟩

section
variable {c : Config} {x : Nat}

/-- Strictly inside a segment whose outputs differ, the interpolation is closer to the first output than the second
is (R102). -/
theorem abs_interpolate_sub_lt {i : Nat} (hlo : bpIn c i < x) (hhi : x < bpIn c (i + 1))
    (hne : bpOut c i ≠ bpOut c (i + 1)) :
    |interpolate c i x - bpOut c i| < |(bpOut c (i + 1) : Int) - bpOut c i| := by
  simp only [interpolate, add_sub_cancel_left]
  exact abs_tdiv_mul_lt (by omega) (by omega) (by omega)

/-- The exact result is an entry of the table, or is interpolated strictly inside a segment. -/
theorem lookupInt_entry_or_interpolated (c : Config) (x : Nat) :
    (∃ j, j < tableSize c ∧ lookupInt c x = bpOut c j) ∨
      ∃ i, OnSegment c i x ∧ bpIn c i < x ∧ lookupInt c x = interpolate c i x := by
  have hsize := tableSize_bounds c
  obtain hlow | ⟨h0, hhigh⟩ | ⟨h0, i, hseg⟩ := input_cases c x
  · exact .inl ⟨0, by omega, lookupInt_of_le_first hlow⟩
  · exact .inl ⟨tableSize c - 1, by omega, lookupInt_of_last_le h0 hhigh⟩
  · have hval := lookupInt_of_onSegment h0 hseg
    obtain heq | hlt := hseg.lower.eq_or_lt
    · refine .inl ⟨i, hseg.lt_tableSize, ?_⟩
      rw [hval, ← heq, interpolate_left]
    · exact .inr ⟨i, hseg, hlt, hval⟩

end

/-- Settles O17: the segment where the scan ends, and the interpolation between its outputs. -/
theorem lookupIsTotalAndFitsAByte : Obligations.LookupIsTotalAndFitsAByte := by
  intro c x
  obtain ⟨hnonneg, hle⟩ := lookupInt_range c x
  refine ⟨⟨hnonneg, hle, toNat_lookup c x⟩, fun h0 hlast => ?_, ?_⟩
  · obtain ⟨hi, hlower, hupper⟩ := onSegment_scanDown h0 hlast
    exact ⟨hi, hlower, hupper⟩
  · obtain hentry | ⟨i, hseg, hlt, hval⟩ := lookupInt_entry_or_interpolated c x
    · exact .inl hentry
    · obtain ⟨hmin, hmax⟩ := interpolate_between hseg
      rw [hval]
      exact .inr ⟨i, hseg.inTable, hlt, hseg.upper, hmin, hmax, abs_interpolate_sub_lt hlt hseg.upper⟩

/-- Settles O18: the inputs and the outputs are bytes, and the product is at most the product of its bounds. -/
theorem interpolationTermStaysInItsRanges : Obligations.InterpolationTermStaysInItsRanges := by
  refine ⟨by decide, fun c x i _ hlo hhi => ?_⟩
  intro diff num den
  have hin := bpIn_le c (i + 1)
  have hout := bpOut_le c i
  have hout' := bpOut_le c (i + 1)
  have hdist : 1 ≤ (x : Int) - bpIn c i ∧ (x : Int) - bpIn c i ≤ 254 := by omega
  have hdiff : |diff| ≤ 255 := abs_le.mpr (by omega)
  have hnum : |num| ≤ 64770 :=
    calc |num| = |diff| * |(x : Int) - bpIn c i| := abs_mul _ _
      _ ≤ 255 * 254 := mul_le_mul hdiff (abs_le.mpr (by omega)) (abs_nonneg _) (by decide)
  have hfits := abs_le.mp hnum
  exact ⟨hdist, by omega, by omega, hdiff, hnum, by omega, fun hne => abs_tdiv_mul_lt hne (by omega) (by omega)⟩

/-! ### Monotone lookups (R103) -/

section
variable {c : Config} (hout : ∀ i, i + 1 < tableSize c → bpOut c i ≤ bpOut c (i + 1))
include hout

/-- BP_OUT is non-decreasing over the whole table when neighbours do not decrease. -/
theorem bpOut_mono {i j : Nat} (hij : i ≤ j) (hj : j < tableSize c) : bpOut c i ≤ bpOut c j := by
  induction j, hij using Nat.le_induction with
  | base => exact le_rfl
  | succ k _ ih => exact (ih (by omega)).trans (hout k hj)

/-- Past a breakpoint the lookup is at least its output. -/
theorem bpOut_le_lookupInt {j y : Nat} (h0 : bpIn c 0 < y) (hj : j < tableSize c) (hjy : bpIn c j ≤ y) :
    (bpOut c j : Int) ≤ lookupInt c y := by
  obtain hlow | ⟨-, hhigh⟩ | ⟨-, i, hseg⟩ := input_cases c y
  · exact absurd h0 hlow.not_gt
  · rw [lookupInt_of_last_le h0 hhigh]
    exact Int.ofNat_le.mpr (bpOut_mono hout (by omega) (by omega))
  · have hji : j ≤ i := by
      by_contra hlt
      have hbeyond := bpIn_mono c (Nat.lt_of_not_ge hlt) hj
      exact absurd (hseg.upper.trans_le hbeyond) hjy.not_gt
    have hstep := hout i hseg.inTable
    have houts := bpOut_mono hout hji hseg.lt_tableSize
    have hbetween := interpolate_between hseg
    rw [lookupInt_of_onSegment h0 hseg]
    omega

theorem lookupInt_mono {x y : Nat} (hxy : x ≤ y) : lookupInt c x ≤ lookupInt c y := by
  have hsize := tableSize_bounds c
  obtain hlow | ⟨h0, hhigh⟩ | ⟨h0, i, hseg⟩ := input_cases c x
  · rw [lookupInt_of_le_first hlow]
    obtain hylow | hy0 := le_or_gt y (bpIn c 0)
    · exact (lookupInt_of_le_first hylow).ge
    · exact bpOut_le_lookupInt hout hy0 (by omega) hy0.le
  · rw [lookupInt_of_last_le h0 hhigh]
    exact bpOut_le_lookupInt hout (h0.trans_le hxy) (by omega) (hhigh.trans hxy)
  · have hy0 := h0.trans_le hxy
    have hrise := hout i hseg.inTable
    obtain hylt | hyge := Nat.lt_or_ge y (bpIn c (i + 1))
    · rw [lookupInt_of_onSegment h0 hseg, lookupInt_of_onSegment hy0 ⟨hseg.inTable, hseg.lower.trans hxy, hylt⟩]
      exact interpolate_mono hseg.nonempty hrise hxy
    · have hend := interpolate_mono hseg.nonempty hrise hseg.upper.le
      rw [interpolate_right hseg.nonempty, ← lookupInt_of_onSegment h0 hseg] at hend
      exact hend.trans (bpOut_le_lookupInt hout hy0 hseg.inTable hyge)

end

/-- Settles O19: `lookupInt_mono`, of the bytes. -/
theorem nonDecreasingTableGivesNonDecreasingLookup : Obligations.NonDecreasingTableGivesNonDecreasingLookup := by
  intro c hout x y hxy
  have hmono := lookupInt_mono hout hxy
  rw [← toNat_lookup, ← toNat_lookup] at hmono
  exact Int.ofNat_le.mp hmono

/-- With a numerator that is not negative, truncation is the floor of natural numbers. -/
theorem interpolate_eq_floor {c : Config} {i x : Nat} (hout : bpOut c i ≤ bpOut c (i + 1)) (h : OnSegment c i x) :
    interpolate c i x =
      ((bpOut c (i + 1) - bpOut c i) * (x - bpIn c i) / (bpIn c (i + 1) - bpIn c i) + bpOut c i : Nat) := by
  rw [Nat.cast_add, Int.natCast_ediv, Nat.cast_mul, Nat.cast_sub hout, Nat.cast_sub h.lower, Nat.cast_sub h.nonempty.le,
    ← Int.tdiv_eq_ediv_of_nonneg (mul_nonneg (by omega) (Int.sub_nonneg_of_le (Int.ofNat_le.mpr h.lower))), add_comm]
  rfl

/-- Settles O20: the floor formula is the truncated one, and the interpolation of a rising segment is monotone. -/
theorem risingSegmentFollowsTheFloorFormula : Obligations.RisingSegmentFollowsTheFloorFormula := by
  intro c i x hi hrise hlo hhi
  have hval := lookup_of_segment hi hlo hhi
  refine ⟨?_, fun y hxy hy => ?_⟩
  · rw [interpolate_eq_floor hrise.le ⟨hi, hlo.le, hhi⟩] at hval
    exact Int.ofNat_inj.mp hval
  · have hmono := interpolate_mono (hlo.trans hhi) hrise.le hxy
    rw [← hval, ← lookup_of_segment hi (hlo.trans_le hxy) hy] at hmono
    exact Int.ofNat_le.mp hmono

/-! ### Falling segments and repeated inputs (R106, R107) -/

/-- Settles O21: the numerator is negative, so `tdiv_rounds_up`; the first output shifts both bounds. -/
theorem fallingSegmentRoundsUpTowardItsStart : Obligations.FallingSegmentRoundsUpTowardItsStart := by
  intro c i x hi hfall hlo hhi den line
  have hnum : ((bpOut c (i + 1) : Int) - bpOut c i) * ((x : Int) - bpIn c i) ≤ 0 :=
    mul_nonpos_of_nonpos_of_nonneg (by omega) (by omega)
  have hden : 0 < den := by omega
  obtain ⟨hle, hlt⟩ := tdiv_rounds_up hnum hden
  rw [lookup_of_segment hi hlo hhi]
  simp only [interpolate, line]
  constructor
  · rw [add_mul]
    exact Int.add_le_add_left hle _
  · rw [add_sub_assoc, add_mul]
    exact Int.add_lt_add_left hlt _

/-- The greatest index with input `x` is not the last, and the input after it is greater. -/
theorem lt_bpIn_succ_of_greatest {c : Config} {i x : Nat} (hi : i < tableSize c) (heq : bpIn c i = x)
    (hlast : x < bpIn c (tableSize c - 1)) (hgreatest : ∀ j, i < j → j < tableSize c → bpIn c j ≠ x) :
    i + 1 < tableSize c ∧ x < bpIn c (i + 1) := by
  have hne : i ≠ tableSize c - 1 := fun h => absurd (h ▸ heq) hlast.ne'
  have hnext : i + 1 < tableSize c := by omega
  exact ⟨hnext, (heq ▸ bpIn_succ c i hnext).lt_of_ne (hgreatest _ (Nat.lt_succ_self i) hnext).symm⟩

/-- Settles O22: the clauses of `lookup` at repeated inputs. -/
theorem repeatedInputsTakeTheHighestIndex : Obligations.RepeatedInputsTakeTheHighestIndex := by
  intro c v
  have hsize := tableSize_bounds c
  refine ⟨fun i hi heq h0 hlast hgreatest => ?_, fun h => lookup_of_le_first h.ge,
    fun h h0 => lookup_of_last_le h0 h.le, fun hall x => ?_, fun h0 hlast => (onSegment_scanDown h0 hlast).nonempty⟩
  · obtain ⟨hnext, hlt⟩ := lt_bpIn_succ_of_greatest hi heq hlast hgreatest
    exact lookup_of_breakpoint h0 hnext heq hlt
  · have hfirst := hall 0 (by omega)
    have hlast := hall (tableSize c - 1) (by omega)
    exact ⟨fun hx => lookup_of_le_first (hfirst ▸ hx), fun hx => lookup_of_last_le (hfirst ▸ hx) (hlast ▸ hx.le)⟩

/-! ### The operation LKUP (R104, R105) -/

section
variable (c : Config) (x : Byte)

/-- The right channel has no offset, and a byte does not reach saturation. -/
theorem channelLookup_right : channelLookup c .right x = lookup c x.toNat := by
  rw [channelLookup, channelInput, channelOffset, Config.rightOffset, Nat.add_zero, min_eq_left (by omega)]

theorem channelLookup_left_of_le (h : x.toNat + c.data.leftOffset ≤ 255) :
    channelLookup c .left x = lookup c (x.toNat + c.data.leftOffset) := by
  rw [channelLookup, channelInput, channelOffset, min_eq_left h]

theorem channelLookup_left_of_ge (h : 255 ≤ x.toNat + c.data.leftOffset) : channelLookup c .left x = lookup c 255 := by
  rw [channelLookup, channelInput, channelOffset, min_eq_right h]

end

/-- Settles O23: LKUP is one write of the channel's lookup, and the offset input is saturated or not. -/
theorem lkupWritesTheResultOfItsChannelOnly : Obligations.LkupWritesTheResultOfItsChannelOnly := by
  intro x s
  refine ⟨decode_ofNat (toNat_encode_lkup .right x), decode_ofNat (toNat_encode_lkup .left x),
    ⟨s.writeYr (channelLookup s.cfg .right x), rfl, rfl, channelLookup_right s.cfg x⟩,
    ⟨s.writeYl (channelLookup s.cfg .left x), rfl, rfl, channelLookup_left_of_le s.cfg x,
      channelLookup_left_of_ge s.cfg x⟩⟩

end Sys2Proof.Machine
end

section
/-! Proofs of the statements about the Hysteresis Filter: its two cases, where a step leaves the level, and what a
run of steps inside the dead band does (spec/41_hysteresis.md). -/

namespace Sys2Proof.Machine

/-! ### What `filter` and FILT do (R120, R121) -/

/-- The level that `filter` answers, as a number. -/
theorem toInt_filter (raw : Byte) (stable : Word) : (filter raw stable).toInt =
    if -1 ≤ (raw.toNat : Int) - stable.toInt ∧ (raw.toNat : Int) - stable.toInt ≤ 1 then stable.toInt
    else raw.toNat := by
  split
  case isTrue hin => rw [filter_inside raw stable hin]
  case isFalse hout => rw [filter_outside raw stable hout, toInt_zeroExtend]

/-- The level is inside the dead band and stays, or it is at least 2 away and the raw value is taken (R120). -/
theorem filter_cases (raw : Byte) (stable : Word) :
    ((-1 ≤ (raw.toNat : Int) - stable.toInt ∧ (raw.toNat : Int) - stable.toInt ≤ 1) ∧ filter raw stable = stable) ∨
    (2 ≤ |(raw.toNat : Int) - stable.toInt| ∧ (filter raw stable).toInt = raw.toNat) := by
  by_cases hin : -1 ≤ (raw.toNat : Int) - stable.toInt ∧ (raw.toNat : Int) - stable.toInt ≤ 1
  · exact .inl ⟨hin, filter_inside raw stable hin⟩
  · have hfar : 2 ≤ |(raw.toNat : Int) - stable.toInt| := le_abs.mpr (by omega)
    exact .inr ⟨hfar, (toInt_filter raw stable).trans (if_neg hin)⟩

/-- A level that moved takes the raw value, at least 2 away (R124). -/
theorem filter_of_ne {raw : Byte} {stable : Word} (h : filter raw stable ≠ stable) :
    2 ≤ |(raw.toNat : Int) - stable.toInt| ∧ (filter raw stable).toInt = raw.toNat :=
  (filter_cases raw stable).resolve_left fun hin => h hin.2

/-- The raw value is inside the dead band of the level FILT leaves (R123). -/
theorem filter_near (raw : Byte) (stable : Word) :
    -1 ≤ (raw.toNat : Int) - (filter raw stable).toInt ∧ (raw.toNat : Int) - (filter raw stable).toInt ≤ 1 := by
  obtain ⟨hin, heq⟩ | ⟨-, heq⟩ := filter_cases raw stable
  · rwa [heq]
  · omega

/-- FILT as one write of STABLE. -/
theorem exec_filt_eq_next_iff {raw : Byte} {s t : State} :
    exec (.filt raw) s = .next t ↔ s.writeStable (filter raw s.stable) = t :=
  iff_of_eq (Host.Outcome.next.injEq ..)

/-- FILT inside the dead band leaves the whole state, not the level alone. -/
theorem exec_filt_inside {raw : Byte} {s : State}
    (h : -1 ≤ (raw.toNat : Int) - s.stable.toInt ∧ (raw.toNat : Int) - s.stable.toInt ≤ 1) :
    exec (.filt raw) s = .next s := by
  rw [exec_filt_eq_next_iff, filter_inside raw s.stable h]
  rfl

theorem toNat_effectiveReading (stable : Word) : (effectiveReading stable).toNat = stable.toNat % 256 := by
  simp [effectiveReading]

/-- Settles O24: the two cases of `filter`, FILT as a write of the filtered level, and the lookup of UPDT on it. -/
theorem filterMovesOnlyOutsideTheDeadBand : Obligations.FilterMovesOnlyOutsideTheDeadBand := by
  refine ⟨fun raw stable => ⟨filter_inside raw stable, fun hout => (toInt_filter raw stable).trans (if_neg hout)⟩,
    fun raw => decode_ofNat (toNat_encode_filt raw), fun raw s => ⟨s.writeStable (filter raw s.stable), rfl, rfl, rfl⟩,
    fun s => ⟨sendFrame (updateBytes (updateLevel s)), rfl, rfl, ?_⟩⟩
  rw [← toNat_effectiveReading]
  exact channelLookup_right s.cfg _

/-! ### Repeated steps (R122, R123, R126) -/

/-- A list of operations that each leave the state can be dropped from the front of a sequence. -/
theorem execSeq_append_of_fixed {is js : List Instr} {s : State} (h : ∀ i ∈ is, exec i s = .next s) :
    execSeq (is ++ js) s = execSeq js s := by
  induction is with
  | nil => rfl
  | cons i is ih =>
    obtain ⟨hi, his⟩ := List.forall_mem_cons.mp h
    rw [List.cons_append, execSeq, hi]
    exact ih his

/-- A list of operations that each leave the state leaves it. -/
theorem execSeq_of_fixed {is : List Instr} {s : State} (h : ∀ i ∈ is, exec i s = .next s) :
    execSeq is s = .next s := by
  simpa [execSeq] using execSeq_append_of_fixed (js := []) h

/-- 49, 50 and 51 are inside the dead band of 50 (R126). -/
theorem exec_filt_around_50 {s : State} (h : s.stable.toInt = 50) :
    ∀ i ∈ [Instr.filt 49, .filt 50, .filt 51], exec i s = .next s := by
  simp only [List.forall_mem_cons, List.not_mem_nil, false_imp_iff, implies_true, and_true]
  refine ⟨exec_filt_inside ?_, exec_filt_inside ?_, exec_filt_inside ?_⟩ <;> rw [h] <;> decide

/-- Settles O25: the raw value ends inside the dead band of the level, so the same step again is inside it. -/
theorem filtEndsWithinOneAndIsIdempotent : Obligations.FiltEndsWithinOneAndIsIdempotent := by
  refine ⟨fun raw s t hx => ?_, fun s h50 => ⟨execSeq_of_fixed (exec_filt_around_50 h50), ?_⟩⟩
  · obtain rfl := exec_filt_eq_next_iff.mp hx
    have hnear := filter_near raw s.stable
    exact ⟨hnear, fun hmoved => (filter_of_ne hmoved).1, exec_filt_inside hnear⟩
  · refine ⟨s.writeStable (filter 52 s.stable), execSeq_append_of_fixed (exec_filt_around_50 h50), ?_⟩
    rw [State.writeStable_stable, toInt_filter, h50]
    rfl

/-- Settles O26: a step inside the dead band is the identity, a move ends on the raw value, and the two ends. -/
theorem filterHasNoDecayAndNoWrap : Obligations.FilterHasNoDecayAndNoWrap := by
  refine ⟨fun n raw s hlo hhi => execSeq_of_fixed fun i hi => ?_, fun raw s t hx hmoved => ?_, fun raw => ?_,
    fun raw => ?_⟩
  · rw [List.eq_of_mem_replicate hi]
    exact exec_filt_inside ⟨hlo, hhi⟩
  · obtain rfl := exec_filt_eq_next_iff.mp hx
    obtain ⟨hjump, htakes⟩ := filter_of_ne hmoved
    rw [State.writeStable_stable, htakes]
    exact ⟨rfl, hjump⟩
  · have hlevel : (0#16 : Word).toInt = 0 := rfl
    rw [toInt_filter, hlevel]
    exact if_congr (by omega) rfl rfl
  · have hlevel : (255#16 : Word).toInt = 255 := rfl
    rw [toInt_filter, hlevel]
    exact if_congr (by omega) rfl rfl

end Sys2Proof.Machine
end

section
/-! Runs: the induction over the steps of a run, and the one over a run of events that carry the same word. -/

namespace Sys2Proof.Machine

/-- A run that goes on past its first step goes on from where that step ended. -/
theorem runSteps_of_step {s u : State} (n : Nat) (hs : step s = .next u) : runSteps (n + 1) s = runSteps n u := by
  simp only [runSteps_succ, hs]

/-- A run that ends in a state took its first step, and went on from there. -/
theorem runSteps_succ_eq_next_iff {n : Nat} {s t : State} :
    runSteps (n + 1) s = .next t ↔ ∃ u, step s = .next u ∧ runSteps n u = .next t := by
  rw [runSteps_succ]
  cases step s <;> simp

/-- What holds before a run, and what each of its steps keeps, holds after it. -/
theorem runSteps_induction {P : State → Prop} {n : Nat} {s t : State} (h0 : P s)
    (hstep : ∀ k u v, k < n → runSteps k s = .next u → step u = .next v → P u → P v)
    (hrun : runSteps n s = .next t) : P t := by
  induction n generalizing s with
  | zero => cases hrun; exact h0
  | succ n ih =>
    obtain ⟨u, hs, hu⟩ := runSteps_succ_eq_next_iff.mp hrun
    refine ih (hstep 0 s u n.succ_pos rfl hs h0) (fun k v w hk hv hw => ?_) hu
    exact hstep (k + 1) v w (Nat.succ_lt_succ hk) ((runSteps_of_step k hs).trans hv) hw

/-- A run of `n` events that carry the word of the operation `i` completes; what holds at its start, and what the
operation carries from `m` events to `m + 1`, holds of `n` events at its end. -/
theorem runSteps_of_nextWords {P : Nat → State → Prop} {w : Word} {i : Instr} {n : Nat} {s : State}
    (hi : decode w = .ok i) (hw : s.NextWords n w) (h0 : P 0 s)
    (hstep : ∀ m u e rest t, e ∈ s.events.take n → u.events = e :: rest → exec i (u.present e rest) = .next t →
      P m u → P (m + 1) t) :
    ∃ t, runSteps n s = .next t ∧ P n t := by
  induction n generalizing s P with
  | zero => exact ⟨s, rfl, h0⟩
  | succ n ih =>
    obtain ⟨hlen, hword⟩ := hw
    obtain ⟨e, rest, he⟩ := List.exists_cons_of_length_pos (n.succ_pos.trans_le hlen)
    rw [he] at hlen hword hstep
    rw [List.take_succ_cons] at hword hstep
    obtain ⟨u, hu⟩ := exec_next i (s.present e rest)
    have hs : step s = .next u := by
      rw [step_present he ((hword e List.mem_cons_self).symm ▸ hi), hu]
    have hrest : u.events = rest := exec_events hu
    have hwu : u.NextWords n w := by
      rw [State.NextWords, hrest]
      exact ⟨Nat.le_of_succ_le_succ hlen, fun a ha => hword a (List.mem_cons_of_mem e ha)⟩
    rw [runSteps_of_step n hs]
    exact ih (P := fun m => P (m + 1)) hwu (hstep 0 s e rest u List.mem_cons_self he hu h0)
      fun m v a as t ha => hstep (m + 1) v a as t (List.mem_cons_of_mem e (hrest ▸ ha))

end Sys2Proof.Machine
end

section
/-! Proofs of the statements about the Selector Scanner: what a scan step leaves in DRIVE, SEL and PHASE, consecutive
scans, and runs without detection (spec/42_scanner.md). -/

namespace Sys2Proof.Machine

/-! ### One scan step (R130, R131) -/

/-- The pattern of a line has that line's bit alone (R12). -/
theorem getLsbD_onehot5 : ∀ k j : Fin 5, (onehot5 k).getLsbD j.val = true ↔ j = k := by decide

/-- A line keeps its number in the three bits of SEL (R26). -/
theorem toNat_line : ∀ k : Fin 5, (BitVec.ofNat 3 k.val).toNat = k.val := by decide

section
variable (s : State)

@[simp] theorem scanStep_drive : (scanStep s).drive = onehot5 s.phase := by rw [scanStep_eq]

@[simp] theorem scanStep_phase : (scanStep s).phase = s.phase + 1 := by rw [scanStep_eq]

/-- The line driven by a scan step is the one PHASE named before it. -/
theorem scanStep_drives_iff (j : Fin 5) : (scanStep s).drive.getLsbD j.val = true ↔ j = s.phase := by
  rw [scanStep_drive, getLsbD_onehot5]

theorem toNat_scanStep_phase : (scanStep s).phase.val = (s.phase.val + 1) % 5 := by
  rw [scanStep_phase, Fin.val_add]
  rfl

end

section
variable {s : State}

/-- A detection latches the line just driven. -/
theorem toNat_scanStep_sel (h : s.contacts.getLsbD s.phase.val = true) : (scanStep s).sel.toNat = s.phase.val := by
  simp only [scanStep_eq, if_pos h, toNat_line]

/-- Without a detection SEL is kept (R133). -/
theorem scanStep_sel_of_silent (h : s.contacts.getLsbD s.phase.val = false) : (scanStep s).sel = s.sel := by
  simp only [scanStep_eq, h, Bool.false_eq_true, if_false]

end

/-- Settles O27: the scan step as one update of DRIVE, SEL and PHASE, SENSE being the bit of the line driven. -/
theorem scanDrivesThenSensesThenAdvances : Obligations.ScanDrivesThenSensesThenAdvances := by
  refine ⟨rfl, fun s => ⟨scanStep s, rfl, by rw [scanStep_eq], scanStep_drives_iff s, ?_, ?_,
    toNat_scanStep_phase s⟩⟩
  all_goals
    have hsense : senseLevel { s with drive := (scanStep s).drive } = s.contacts.getLsbD s.phase.val := by
      rw [scanStep_drive]
      exact senseLevel_driveLine s
    rw [hsense]
  · exact toNat_scanStep_sel
  · exact scanStep_sel_of_silent

/-! ### Consecutive scans (R132, R136, R137) -/

/-- `u` stands `m` scan steps after a state whose PHASE is `k`: PHASE is `m` lines further, and the line driven is that
of the last of the steps. -/
structure ScansAfter (k : Fin 5) (m : Nat) (u : State) : Prop where
  phase : u.phase.val = (k.val + m) % 5
  driven : ∀ l, m = l + 1 → ∀ j : Fin 5, u.drive.getLsbD j.val = true ↔ j.val = (k.val + l) % 5

theorem scansAfter_zero (s : State) : ScansAfter s.phase 0 s where
  phase := (Nat.mod_eq_of_lt s.phase.isLt).symm
  driven := fun _ h => absurd h (Nat.succ_ne_zero _).symm

theorem ScansAfter.scanStep {k : Fin 5} {m : Nat} {u : State} (h : ScansAfter k m u) :
    ScansAfter k (m + 1) (scanStep u) where
  phase := by rw [toNat_scanStep_phase, h.phase, Nat.mod_add_mod, Nat.add_assoc]
  driven := by
    intro l hl j
    obtain rfl := Nat.succ.inj hl
    rw [scanStep_drives_iff, Fin.ext_iff, h.phase]

/-- Settles O29: each scan of the run is one more step of `ScansAfter`; presenting an event moves neither PHASE nor
DRIVE. -/
theorem consecutiveScansCycleThroughTheLines : Obligations.ConsecutiveScansCycleThroughTheLines := by
  intro n s hw
  obtain ⟨t, hrun, ht⟩ := runSteps_of_nextWords (i := .scan) rfl hw (scansAfter_zero s) fun m u e rest t _ _ hx hu => by
    have hpresent : ScansAfter s.phase m (u.present e rest) := ⟨hu.phase, hu.driven⟩
    cases hx
    exact hpresent.scanStep
  exact ⟨t, hrun, ht.driven n rfl, ht.phase⟩

/-- After `m` scans with a switch at `p`: `p` was detected, or it is ahead of PHASE within the rest of five scans. -/
def FoundOrAhead (p : Fin 5) (m : Nat) (u : State) : Prop := u.sel.toNat = p.val ∨ (p - u.phase).val + m < 5

/-- A line that is not the one driven is one scan nearer after it. -/
theorem distance_next_phase : ∀ p k : Fin 5, p ≠ k → (p - (k + 1)).val + 1 = (p - k).val := by decide

/-- A scan detects the switch if it drives its line; otherwise it keeps SEL and comes one line nearer. -/
theorem FoundOrAhead.scanStep {p : Fin 5} {m : Nat} {u : State} (hswitch : u.contacts = onehot5 p)
    (h : FoundOrAhead p m u) : FoundOrAhead p (m + 1) (scanStep u) := by
  have hbit : u.contacts.getLsbD u.phase.val = true ↔ u.phase = p := by rw [hswitch, getLsbD_onehot5]
  by_cases hp : u.phase = p
  · exact .inl (hp ▸ toNat_scanStep_sel (hbit.mpr hp))
  · obtain hfound | hahead := h
    · left
      rw [scanStep_sel_of_silent (Bool.eq_false_iff.mpr (mt hbit.mp hp)), hfound]
    · right
      have hnear := distance_next_phase p u.phase (Ne.symm hp)
      rw [scanStep_phase]
      omega

/-- Settles O30: at the start the switch is less than five lines ahead, and after five scans it is not. -/
theorem switchPositionIsFoundWithinFiveScans : Obligations.SwitchPositionIsFoundWithinFiveScans := by
  intro n p s hn hw hswitch
  have hstart : FoundOrAhead p 0 s := .inr (p - s.phase).isLt
  obtain ⟨t, hrun, ht⟩ := runSteps_of_nextWords (i := .scan) rfl hw hstart fun m u e rest t he _ hx hu => by
    have hpresent : FoundOrAhead p m (u.present e rest) := hu
    cases hx
    exact hpresent.scanStep (hswitch e he)
  exact ⟨t, hrun, ht.resolve_right (by omega)⟩

/-! ### Runs without detection (R133, R135) -/

/-- Of the slow event the scan step alone writes SEL (R173). -/
theorem slowEvent_sel (s : State) : (slowEvent s).sel = (scanStep s).sel := by
  rw [slowEvent_eq, scanStep_eq]

/-- An operation keeps SEL if SENSE answers 0 whenever it runs a scan step. -/
theorem exec_sel_of_silent {i : Instr} {s t : State} (hx : exec i s = .next t)
    (hsilent : (i = .scan ∨ i = .slow ∨ i = .tks ∧ s.scnt.toNat + 1 = s.cfg.data.slowDiv) →
      s.contacts.getLsbD s.phase.val = false) : t.sel = s.sel := by
  by_contra hne
  obtain ⟨-, -, -, -, hwriters, -⟩ := eachRegisterHasItsWriters i s t hx
  have hi : i = .scan ∨ i = .slow ∨ i = .tks := by simpa using hwriters (.inl hne)
  apply hne
  obtain rfl | rfl | rfl := hi
  · cases hx
    exact scanStep_sel_of_silent (hsilent (.inl rfl))
  · cases hx
    rw [slowEvent_sel, scanStep_sel_of_silent (hsilent (.inr (.inl rfl)))]
  · cases hx
    rw [slowTick_eq]
    split
    case isTrue hmatch =>
      rw [slowEvent_sel]
      exact scanStep_sel_of_silent (s := { s with scnt := 0#16 }) (hsilent (.inr (.inr ⟨rfl, hmatch⟩)))
    case isFalse => rfl

/-- A step keeps SEL if SENSE answers 0 whenever its word runs a scan step. -/
theorem step_sel_of_silent {s t : State} (hs : step s = .next t)
    (hsilent : ∀ e rest, s.events = e :: rest →
      (e.word = 0x3000#16 ∨ e.word = 0x9000#16 ∨ e.word = 0xB000#16 ∧ s.scnt.toNat + 1 = s.cfg.data.slowDiv) →
        e.contacts.getLsbD s.phase.val = false) : t.sel = s.sel := by
  obtain ⟨-, rfl⟩ | ⟨e, rest, i, he, hd, hx⟩ := step_next_cases s t hs
  · rfl
  · have hword : encode i = e.word := (decode_eq_ok_iff e.word i).mp hd
    have hkeep : t.sel = (s.present e rest).sel := exec_sel_of_silent hx fun hi => hsilent e rest he <| by
      obtain rfl | rfl | ⟨rfl, hmatch⟩ := hi
      · exact .inl hword.symm
      · exact .inr (.inl hword.symm)
      · exact .inr (.inr ⟨hword.symm, hmatch⟩)
    exact hkeep

/-- Settles O31: every step of the run keeps SEL. -/
theorem positionIsRetainedWithoutDetection : Obligations.PositionIsRetainedWithoutDetection := by
  intro n s t hsilent hrun
  refine runSteps_induction (P := fun u => u.sel = s.sel) rfl (fun k u v hk hu hv hsel => ?_) hrun
  exact (step_sel_of_silent hv fun e rest => hsilent k u e rest hk hu).trans hsel

end Sys2Proof.Machine
end

section
/-! Proofs of the statements about the serial pipeline: the frame of SEND, the data flow of UPDT and its split into four
operations, MUTE, which nothing reads, and NOP, which alone does nothing (spec/43_serial_pipeline.md). -/

namespace Sys2Proof.Machine

/-! ### SEND (R153) -/

/-- A second frame carries the same bytes, and the pins already stand as it leaves them. -/
theorem sendFrame_sendFrame (s : State) :
    sendFrame (sendFrame s) =
      { sendFrame s with trace := (sendFrame s).trace ++ [.frame (sendFrame s).yr (sendFrame s).yl] } := by
  rw [sendFrame_eq (sendFrame s), sendFrame_eq s]

/-- Settles O33: SEND is one frame, and a frame leaves YR and YL to the next one. -/
theorem sendEmitsOneFrameOfTheResultBytes : Obligations.SendEmitsOneFrameOfTheResultBytes :=
  ⟨decode_encode .send, fun s => ⟨sendFrame s, rfl, rfl, rfl, congrArg Host.Outcome.next (sendFrame_sendFrame s)⟩⟩

/-! ### UPDT (R155, R156) -/

/-- The left channel's input is the offset reading, saturated (R104). -/
theorem channelLookup_left (c : Config) (x : Byte) :
    channelLookup c .left x = lookup c (min (x.toNat + c.data.leftOffset) 255) := rfl

/-- Settles O36: one write of the level and one of each result byte, both looked up from the new level, and a frame. -/
theorem updtRunsTheWholePipeline : Obligations.UpdtRunsTheWholePipeline := by
  refine ⟨decode_encode .updt, fun s => ⟨sendFrame (updateBytes (updateLevel s)), rfl, rfl, rfl, ?_, ?_, rfl⟩⟩
  · rw [← toNat_effectiveReading]
    exact channelLookup_right s.cfg _
  · rw [← toNat_effectiveReading]
    exact channelLookup_left s.cfg _

/-- Settles O37: `updateLevel` is the write of FILT on RAW[15:8], `updateBytes` is the writes of the two LKUP on the level
it leaves, and the frame is that of SEND, so the two sides are one composition of writes. -/
theorem updtEqualsTheSplitPipeline : Obligations.UpdtEqualsTheSplitPipeline :=
  fun _ => rfl

/-! ### From a conversion to the frame (R151, R155) -/

/-- A raw value that is the level already, or is outside its dead band, is the level after the filter. -/
theorem toInt_filter_of_eq_or_far {raw : Byte} {stable : Word}
    (h : stable.toInt = raw.toNat ∨ 1 < |(raw.toNat : Int) - stable.toInt|) :
    (filter raw stable).toInt = raw.toNat := by
  obtain ⟨hin, hkeep⟩ | ⟨-, htake⟩ := filter_cases raw stable
  · rw [hkeep]
    exact h.resolve_right (not_lt.mpr (abs_le.mpr hin))
  · exact htake

/-- The effective reading of a level that is a byte is that byte (R155, R161). -/
theorem toNat_mod_of_toInt_eq {stable : Word} {raw : Byte} (h : stable.toInt = raw.toNat) :
    stable.toNat % 256 = raw.toNat := by
  rw [BitVec.toInt_eq_toNat_cond] at h
  split at h <;> omega

/-- Settles O38: the conversion's level passes the filter, and UPDT sends the lookups of the level it finds. -/
theorem sampleReachesTheFrame : Obligations.SampleReachesTheFrame := by
  intro c s hlevel
  obtain ⟨-, hupdt⟩ := updtRunsTheWholePipeline
  obtain ⟨t, hx, -, hstable, hyr, hyl, htrace⟩ := hupdt (s.writeRaw (leftJustify c))
  rw [← toNat_level8_leftJustify] at hlevel ⊢
  have hread : t.stable.toNat % 256 = (level8 (leftJustify c)).toNat := by
    rw [hstable]
    exact toNat_mod_of_toInt_eq (toInt_filter_of_eq_or_far hlevel)
  rw [hread] at hyr hyl
  rw [hyr, hyl] at htrace
  exact ⟨t, execSeq_pair rfl hx, htrace⟩

/-! ### A repeated UPDT (R157) -/

/-- A second filter step on the same raw value keeps the level (R123). -/
theorem filter_filter (raw : Byte) (stable : Word) : filter raw (filter raw stable) = filter raw stable :=
  filter_inside raw _ (filter_near raw stable)

/-- After UPDT the level is filtered already: a frame and the result bytes leave RAW and STABLE. -/
theorem updateLevel_after_updt (s : State) :
    updateLevel (sendFrame (updateBytes (updateLevel s))) = sendFrame (updateBytes (updateLevel s)) :=
  congrArg (sendFrame (updateBytes (updateLevel s))).writeStable (filter_filter (level8 s.raw) s.stable)

/-- The result bytes stand already as they are computed from the level: a frame leaves them and the level. -/
theorem updateBytes_after_frame (s : State) :
    updateBytes (sendFrame (updateBytes s)) = sendFrame (updateBytes s) := rfl

/-- Settles O39: the level and the bytes are those of the first UPDT, so the second is a second frame. -/
theorem repeatedUpdtSendsTheSameFrameAgain : Obligations.RepeatedUpdtSendsTheSameFrameAgain := by
  intro s t hx
  cases hx
  refine congrArg Host.Outcome.next ?_
  rw [updateLevel_after_updt, updateBytes_after_frame, sendFrame_sendFrame]

/-! ### MUTE (R25, R158) -/

section
variable (b : Bool) (s : State)

theorem scanStep_writeMute : scanStep (s.writeMute b) = (scanStep s).writeMute b := by
  rw [scanStep_eq, scanStep_eq]
  rfl

theorem elapsedStep_writeMute : elapsedStep (s.writeMute b) = (elapsedStep s).writeMute b := by
  rw [elapsedStep_eq, elapsedStep_eq]
  rfl

theorem fastTick_writeMute : fastTick (s.writeMute b) = (fastTick s).writeMute b := by
  rw [fastTick_eq s, apply_ite (State.writeMute b)]
  rfl

/-- The slow event samples MUTE anew, so what stood there is lost. -/
theorem slowEvent_writeMute : slowEvent (s.writeMute b) = slowEvent s := by
  rw [slowEvent_eq, slowEvent_eq]
  rfl

/-- A slow tick samples MUTE anew on a match, and otherwise leaves it. -/
theorem slowTick_writeMute : ∃ b', slowTick (s.writeMute b) = (slowTick s).writeMute b' := by
  rw [slowTick_eq s]
  by_cases hmatch : s.scnt.toNat + 1 = s.cfg.data.slowDiv
  · refine ⟨(slowEvent { s with scnt := 0#16 }).mute, ?_⟩
    rw [if_pos hmatch, slowTick_eq, State.writeMute_scnt, State.writeMute_cfg, if_pos hmatch]
    exact slowEvent_writeMute b { s with scnt := 0#16 }
  · refine ⟨b, ?_⟩
    rw [if_neg hmatch, slowTick_eq, State.writeMute_scnt, State.writeMute_cfg, if_neg hmatch]
    rfl

end

/-- With MUTE changed an operation gives the same state but for MUTE. -/
theorem exec_writeMute {i : Instr} {s t : State} (hx : exec i s = .next t) (b : Bool) :
    ∃ b', exec i (s.writeMute b) = .next (t.writeMute b') := by
  cases i <;> cases hx
  case lkup ch x => cases ch <;> exact ⟨b, rfl⟩
  case scan => exact ⟨b, congrArg Host.Outcome.next (scanStep_writeMute b s)⟩
  case muts => exact ⟨s.muteIn, rfl⟩
  case etck => exact ⟨b, congrArg Host.Outcome.next (elapsedStep_writeMute b s)⟩
  case slow => exact ⟨(slowEvent s).mute, congrArg Host.Outcome.next (slowEvent_writeMute b s)⟩
  case tkf => exact ⟨b, congrArg Host.Outcome.next (fastTick_writeMute b s)⟩
  case tks =>
    obtain ⟨b', htick⟩ := slowTick_writeMute b s
    exact ⟨b', congrArg Host.Outcome.next htick⟩
  all_goals exact ⟨b, rfl⟩

/-- Only the operations that sample MUTE_IN write MUTE (R25). -/
theorem exec_mute {i : Instr} {s t : State} (hx : exec i s = .next t) (hmuts : i ≠ .muts) (hslow : i ≠ .slow)
    (htks : i ≠ .tks) : t.mute = s.mute := by
  obtain ⟨-, -, -, -, -, hmute, -⟩ := eachRegisterHasItsWriters i s t hx
  by_contra hne
  simpa [hmuts, hslow, htks] using hmute hne

/-- Settles O40: `exec_writeMute`, and `exec_mute` of the state as it was and of the state with MUTE changed. -/
theorem noOperationReadsMute : Obligations.NoOperationReadsMute := by
  intro i s t b hx
  obtain ⟨b', hx'⟩ := exec_writeMute hx b
  exact ⟨t.writeMute b', hx', rfl, fun hmuts hslow htks =>
    ⟨exec_mute hx hmuts hslow htks, exec_mute hx' hmuts hslow htks⟩⟩

/-! ### NOP (R160) -/

/-- A state that operations can be seen to change: the slot holds no conversion, the level is below the dead band of
every byte, and MUTE_IN is not what MUTE holds; the fast and the slow divider match at every
tick. -/
def changeable : State :=
  { State.resetWith Config.someWellFormed 0 with raw := 1#16, stable := 0xFFFE#16, muteIn := true }

/-- A frame is new on the trace. -/
theorem sendFrame_trace_ne (s : State) : (sendFrame s).trace ≠ s.trace := by
  rw [sendFrame_trace]
  simp

/-- The slot takes no value with a low bit set (R35 (a)). -/
theorem leftJustify_ne_one (c : BitVec 10) : leftJustify c ≠ 1#16 := by
  refine ne_of_apply_ne BitVec.toNat ?_
  rw [toNat_leftJustify, BitVec.toNat_ofNat]
  omega

/-- From a level below the dead band of every byte the filter moves. -/
theorem filter_below_ne (raw : Byte) : filter raw 0xFFFE#16 ≠ 0xFFFE#16 := by
  have hlevel : (0xFFFE#16 : Word).toInt = -2 := rfl
  refine ne_of_apply_ne BitVec.toInt ?_
  rw [toInt_filter_of_eq_or_far] <;> rw [hlevel]
  · omega
  · exact .inr (lt_abs.mpr (by omega))

theorem writeResult_cfg (ch : Channel) (v : Byte) (s : State) : (writeResult ch v s).cfg = s.cfg := by
  cases ch <;> rfl

/-- A result register that holds another byte is changed. -/
theorem writeResult_ne (ch : Channel) (v : Byte) (s : State) :
    writeResult ch v (writeResult ch (v + 1#8) s) ≠ writeResult ch (v + 1#8) s := by
  have hv : v ≠ v + 1#8 := by simp
  cases ch
  · exact ne_of_apply_ne State.yr hv
  · exact ne_of_apply_ne State.yl hv

/-- An operation other than NOP changes some state: `changeable`, and for LKUP one that does not hold the result. -/
theorem exists_exec_ne {i : Instr} (hi : i ≠ .nop) : ∃ s t, exec i s = .next t ∧ t ≠ s := by
  cases i
  case nop => exact absurd rfl hi
  case lkup ch x =>
    refine ⟨writeResult ch (channelLookup changeable.cfg ch x + 1#8) changeable, _, rfl, ?_⟩
    rw [writeResult_cfg]
    exact writeResult_ne ch _ changeable
  case filt x => exact ⟨changeable, _, rfl, ne_of_apply_ne State.stable (filter_below_ne x)⟩
  case smpl c => exact ⟨changeable, _, rfl, ne_of_apply_ne State.raw (leftJustify_ne_one c)⟩
  case updt | send => exact ⟨changeable, _, rfl, ne_of_apply_ne State.trace (sendFrame_trace_ne _)⟩
  case scan | slow | tks => exact ⟨changeable, _, rfl, ne_of_apply_ne State.phase (by decide)⟩
  case muts => exact ⟨changeable, _, rfl, ne_of_apply_ne State.mute (by decide)⟩
  case etck => exact ⟨changeable, _, rfl, ne_of_apply_ne State.subsec (by decide)⟩
  case tkf => exact ⟨changeable, _, rfl, ne_of_apply_ne State.trace (by decide)⟩

/-- Settles O41: NOP is the identity, its word is its encoding, and `exists_exec_ne`. -/
theorem nopAloneHasNoEffect : Obligations.NopAloneHasNoEffect :=
  ⟨fun _ => rfl, fun w => (decode_eq_ok_iff w .nop).trans eq_comm, fun _ hi => exists_exec_ne hi⟩

end Sys2Proof.Machine
end

section
/-! Proofs of the statements about the Periodic Timing Subsystem: one tick of each counter, the slow event and its three
parts, the closed forms of runs of ticks, and the independence of the two dividers (spec/44_timing.md). -/

namespace Sys2Proof.Machine

/-! ### A counter matches, or counts up by 1 below its top (R170, R171, R175) -/

section
variable {s : State}

theorem fastTick_of_match (h : s.fcnt.toNat + 1 = s.cfg.data.fastDiv) : fastTick s =
    { s with fcnt := 0#16, trace := s.trace ++ [.sampleTrig], pins := { s.pins with sampleTrig := false } } :=
  if_pos h

theorem fastTick_of_count (h : s.fcnt.toNat + 1 ≠ s.cfg.data.fastDiv) (hlt : s.fcnt.toNat < 65535) :
    fastTick s = { s with fcnt := s.fcnt + 1#16 } := by
  rw [fastTick_eq, if_neg h, countOn_below _ _ hlt, countTaken_below _ _ hlt]

theorem slowTick_of_match (h : s.scnt.toNat + 1 = s.cfg.data.slowDiv) :
    slowTick s = slowEvent { s with scnt := 0#16 } :=
  if_pos h

theorem slowTick_of_count (h : s.scnt.toNat + 1 ≠ s.cfg.data.slowDiv) (hlt : s.scnt.toNat < 65535) :
    slowTick s = { s with scnt := s.scnt + 1#16 } := by
  rw [slowTick_eq, if_neg h, countOn_below _ _ hlt, countTaken_below _ _ hlt]

theorem elapsedStep_of_match (h : s.subsec.toNat + 1 = s.cfg.data.secDiv) :
    elapsedStep s = { s with subsec := 0#16, elapsed := saturatingNext s.elapsed } :=
  if_pos h

theorem elapsedStep_of_count (h : s.subsec.toNat + 1 ≠ s.cfg.data.secDiv) (hlt : s.subsec.toNat < 65535) :
    elapsedStep s = { s with subsec := s.subsec + 1#16 } := by
  simp only [elapsedStep_eq, if_neg h, countOn_below _ _ hlt, countTaken_below _ _ hlt]

end

/-! ### The divider counters as parameters of the operations -/

section
variable (v : Word) (s : State)

theorem scanStep_writeFcnt : scanStep (s.writeFcnt v) = (scanStep s).writeFcnt v := by
  rw [scanStep_eq, scanStep_eq]
  rfl

theorem elapsedStep_writeFcnt : elapsedStep (s.writeFcnt v) = (elapsedStep s).writeFcnt v := by
  rw [elapsedStep_eq, elapsedStep_eq]
  rfl

theorem slowEvent_writeFcnt : slowEvent (s.writeFcnt v) = (slowEvent s).writeFcnt v := by
  rw [slowEvent_eq, slowEvent_eq]
  rfl

theorem slowTick_writeFcnt : slowTick (s.writeFcnt v) = (slowTick s).writeFcnt v := by
  rw [slowTick_eq s, apply_ite (State.writeFcnt v), ← slowEvent_writeFcnt]
  rfl

@[simp] theorem slowTick_fcnt : (slowTick s).fcnt = s.fcnt :=
  (congrArg State.fcnt (slowTick_writeFcnt s.fcnt s) :)

theorem slowEvent_writeScnt : slowEvent (s.writeScnt v) = (slowEvent s).writeScnt v := by
  rw [slowEvent_eq, slowEvent_eq]
  rfl

theorem fastTick_writeScnt : fastTick (s.writeScnt v) = (fastTick s).writeScnt v := by
  rw [fastTick_eq s, apply_ite (State.writeScnt v)]
  rfl

end

/-- An operation other than TKF neither reads nor writes FCNT (R170). -/
theorem exec_writeFcnt {i : Instr} {s t : State} (hi : i ≠ .tkf) (hx : exec i s = .next t) (v : Word) :
    exec i (s.writeFcnt v) = .next (t.writeFcnt v) := by
  cases i <;> cases hx
  case lkup ch x => cases ch <;> rfl
  case scan => exact congrArg Host.Outcome.next (scanStep_writeFcnt v s)
  case etck => exact congrArg Host.Outcome.next (elapsedStep_writeFcnt v s)
  case slow => exact congrArg Host.Outcome.next (slowEvent_writeFcnt v s)
  case tks => exact congrArg Host.Outcome.next (slowTick_writeFcnt v s)
  case tkf => exact absurd rfl hi
  all_goals rfl

/-! ### One tick, one mute sample, one elapsed-time step -/

/-- Settles O42: the two cases of a fast tick, and the writes of SCNT and FCNT that it and the others commute with. -/
theorem tkfCountsAndTriggersOnTheMatch : Obligations.TkfCountsAndTriggersOnTheMatch := by
  refine ⟨rfl, fun s => ⟨fastTick s, rfl, fastTick_of_match, fun hne hlt => ?_, fun v => ?_⟩,
    fun i s t v hi hx => exec_writeFcnt hi hx v⟩
  · rw [fastTick_of_count hne hlt]
    exact ⟨rfl, toNat_succ s.fcnt hlt⟩
  · exact congrArg Host.Outcome.next (fastTick_writeScnt v s)

/-- Settles O44: the two cases of a slow tick; it commutes with a write of FCNT. -/
theorem tksCountsAndRunsTheSlowEventOnTheMatch : Obligations.TksCountsAndRunsTheSlowEventOnTheMatch := by
  refine ⟨rfl, fun s => ⟨slowTick s, rfl, fun hmatch => ?_, fun hne hlt => ?_, fun v => ?_⟩⟩
  · exact congrArg Host.Outcome.next (slowTick_of_match hmatch).symm
  · rw [slowTick_of_count hne hlt]
    exact ⟨rfl, toNat_succ s.scnt hlt⟩
  · exact congrArg Host.Outcome.next (slowTick_writeFcnt v s)

/-- Settles O47: the mute sample is one write of MUTE. -/
theorem mutsCopiesTheMuteLine : Obligations.MutsCopiesTheMuteLine := ⟨rfl, fun _ => rfl⟩

/-- Settles O48: the two cases of an elapsed-time step. -/
theorem etckCountsAndSaturates : Obligations.EtckCountsAndSaturates := by
  refine ⟨rfl, fun s => ⟨elapsedStep s, rfl, fun hmatch => ?_, fun hne hlt => ?_⟩⟩
  · rw [elapsedStep_of_match hmatch]
    exact ⟨rfl, toNat_saturatingNext s.elapsed⟩
  · rw [elapsedStep_of_count hne hlt]
    exact ⟨rfl, toNat_succ s.subsec hlt⟩

/-! ### The slow event (R173) -/

section
variable (s : State)

theorem scanStep_muteSample : scanStep (muteSample s) = muteSample (scanStep s) := by
  rw [scanStep_eq, scanStep_eq]
  rfl

theorem muteSample_elapsedStep : muteSample (elapsedStep s) = elapsedStep (muteSample s) := by
  rw [elapsedStep_eq, elapsedStep_eq]
  rfl

theorem scanStep_elapsedStep : scanStep (elapsedStep s) = elapsedStep (scanStep s) := by
  rw [elapsedStep_eq, elapsedStep_eq, scanStep_eq, scanStep_eq]

end

/-- The six orders of the three parts. -/
theorem perm_slowParts_iff (parts : List Instr) : parts.Perm [.scan, .muts, .etck] ↔
    parts ∈ [[.scan, .muts, .etck], [.muts, .scan, .etck], [.muts, .etck, .scan],
      [.scan, .etck, .muts], [.etck, .scan, .muts], [.etck, .muts, .scan]] :=
  List.mem_permutations'.symm

/-- Settles O46: the parts commute pairwise, so each of the six orders is the order of `slowEvent`. -/
theorem slowIsItsThreePartsInAnyOrder : Obligations.SlowIsItsThreePartsInAnyOrder := by
  refine ⟨rfl, fun s => ⟨slowEvent s, rfl, by rw [slowEvent_eq], by rw [slowEvent_eq], by rw [slowEvent_eq],
    fun v => congrArg Host.Outcome.next (slowEvent_writeScnt v s), fun parts hperm => ?_⟩⟩
  rw [perm_slowParts_iff] at hperm
  simp only [List.mem_cons, List.not_mem_nil, or_false] at hperm
  obtain rfl | rfl | rfl | rfl | rfl | rfl := hperm
  all_goals
    refine congrArg Host.Outcome.next ?_
    simp only [slowEvent, scanStep_muteSample, muteSample_elapsedStep, scanStep_elapsedStep]

/-! ### Counting ticks with a period (R180) -/

section
variable {d k : Nat}

/-- On a match the count of ticks is a whole number of periods, one more than before. -/
theorem succ_divMod_of_match {c : Nat} (hc : c = k % d) (hmatch : c + 1 = d) :
    (k + 1) % d = 0 ∧ (k + 1) / d = k / d + 1 := by
  have hk := Nat.mod_add_div k d
  refine ((Nat.div_mod_unique (by omega)).mpr ⟨?_, by omega⟩).symm
  rw [Nat.mul_add]
  omega

/-- Off the match a counter is below its top and counts up, inside the same period. -/
theorem succ_divMod_of_count {c : Word} (hd : 1 ≤ d ∧ d ≤ 65535) (hc : c.toNat = k % d)
    (hne : c.toNat + 1 ≠ d) :
    c.toNat < 65535 ∧ (c + 1#16).toNat = (k + 1) % d ∧ (k + 1) / d = k / d := by
  obtain ⟨hpos, hmax⟩ := hd
  have hk := Nat.mod_add_div k d
  have hlt := Nat.mod_lt k hpos
  have hbelow : c.toNat < 65535 := by omega
  have hnext : (k + 1) / d = k / d ∧ (k + 1) % d = c.toNat + 1 :=
    (Nat.div_mod_unique hpos).mpr ⟨by omega, by omega⟩
  exact ⟨hbelow, (toNat_succ c hbelow).trans hnext.2.symm, hnext.1⟩

end

/-! ### Fast ticks (R170, R180) -/

/-- `s` with what a fast tick and the environment write taken from `p`. -/
def State.withFastPartOf (s p : State) : State :=
  { s with fcnt := p.fcnt, trace := p.trace, pins := p.pins, contacts := p.contacts, muteIn := p.muteIn,
           events := p.events }

/-- Two changes of that part, one after the other, change no more than it. -/
theorem eq_withFastPartOf_trans {s u v : State} (hu : u = s.withFastPartOf u) (hv : v = u.withFastPartOf v) :
    v = s.withFastPartOf v :=
  hv.trans (congrArg (State.withFastPartOf · v) hu :)

/-- `u` stands `m` events TKF after `s`. -/
structure FastTicks (s : State) (m : Nat) (u : State) : Prop where
  fcnt : u.fcnt.toNat = (s.fcnt.toNat + m) % s.cfg.data.fastDiv
  trace : u.trace = s.trace ++ List.replicate ((s.fcnt.toNat + m) / s.cfg.data.fastDiv) .sampleTrig
  events : u.events = s.events.drop m
  frame : u = s.withFastPartOf u

theorem fastTicks_zero {s : State} (h : s.fcnt.toNat < s.cfg.data.fastDiv) : FastTicks s 0 s where
  fcnt := (Nat.mod_eq_of_lt h).symm
  trace := by rw [Nat.add_zero, Nat.div_eq_of_lt h, List.replicate_zero, List.append_nil]
  events := rfl
  frame := rfl

theorem FastTicks.fastTick {s u : State} {m : Nat} {e : Event} {rest : List Event} (h : FastTicks s m u)
    (he : u.events = e :: rest) : FastTicks s (m + 1) (fastTick (u.present e rest)) := by
  obtain ⟨hperiod, -⟩ := divider_bounds s.cfg
  have hcfg : u.cfg = s.cfg := (congrArg State.cfg h.frame :)
  have hrest : rest = s.events.drop (m + 1) := by rw [← List.tail_drop, ← h.events, he, List.tail_cons]
  by_cases hmatch : u.fcnt.toNat + 1 = s.cfg.data.fastDiv
  · obtain ⟨hmod, hdiv⟩ := succ_divMod_of_match h.fcnt hmatch
    rw [fastTick_of_match (s := u.present e rest) (hcfg ▸ hmatch)]
    refine ⟨hmod.symm, ?_, hrest, eq_withFastPartOf_trans h.frame rfl⟩
    rw [← Nat.add_assoc, hdiv, List.replicate_succ', ← List.append_assoc, ← h.trace]
    rfl
  · obtain ⟨hbelow, hmod, hdiv⟩ := succ_divMod_of_count hperiod h.fcnt hmatch
    rw [fastTick_of_count (s := u.present e rest) (hcfg ▸ hmatch) hbelow]
    refine ⟨hmod, ?_, hrest, eq_withFastPartOf_trans h.frame rfl⟩
    rw [← Nat.add_assoc, hdiv]
    exact h.trace

/-- Settles O43: each event of the run is one more tick of `FastTicks`. -/
theorem fastDividerClosedForm : Obligations.FastDividerClosedForm := by
  intro n s hlegal hw
  obtain ⟨t, hrun, ht⟩ := runSteps_of_nextWords (i := .tkf) rfl hw (fastTicks_zero hlegal)
    fun m u e rest t _ he hx hu => by
      cases hx
      exact hu.fastTick he
  refine ⟨t, hrun, ht.fcnt, ht.trace, ?_⟩
  rw [← ht.events]
  exact ht.frame

/-! ### Elapsed-time steps (R175, R179) -/

/-- `u` stands `m` elapsed-time steps after `s`, as SUBSEC and ELAPSED count them. -/
structure ElapsedSteps (s : State) (m : Nat) (u : State) : Prop where
  cfg : u.cfg = s.cfg
  subsec : u.subsec.toNat = (s.subsec.toNat + m) % s.cfg.data.secDiv
  elapsed : u.elapsed.toNat = min (s.elapsed.toNat + (s.subsec.toNat + m) / s.cfg.data.secDiv) 65535

theorem elapsedSteps_zero {s : State} (h : s.subsec.toNat < s.cfg.data.secDiv) : ElapsedSteps s 0 s where
  cfg := rfl
  subsec := (Nat.mod_eq_of_lt h).symm
  elapsed := by
    rw [Nat.add_zero, Nat.div_eq_of_lt h]
    omega

theorem ElapsedSteps.elapsedStep {s u : State} {m : Nat} (h : ElapsedSteps s m u) :
    ElapsedSteps s (m + 1) (elapsedStep u) := by
  obtain ⟨-, -, hperiod⟩ := divider_bounds s.cfg
  by_cases hmatch : u.subsec.toNat + 1 = s.cfg.data.secDiv
  · obtain ⟨hmod, hdiv⟩ := succ_divMod_of_match h.subsec hmatch
    rw [elapsedStep_of_match (h.cfg ▸ hmatch)]
    refine ⟨h.cfg, hmod.symm, (toNat_saturatingNext u.elapsed).trans ?_⟩
    rw [h.elapsed, ← Nat.add_assoc, hdiv]
    omega
  · obtain ⟨hbelow, hmod, hdiv⟩ := succ_divMod_of_count hperiod h.subsec hmatch
    rw [elapsedStep_of_count (h.cfg ▸ hmatch) hbelow]
    refine ⟨h.cfg, hmod, ?_⟩
    rw [← Nat.add_assoc, hdiv]
    exact h.elapsed

/-- From SUBSEC = 0 and ELAPSED below its top, one whole period adds 1 to ELAPSED and ends with SUBSEC = 0. -/
theorem ElapsedSteps.of_period {s t : State} (h : ElapsedSteps s s.cfg.data.secDiv t) (h0 : s.subsec = 0#16)
    (htop : s.elapsed.toNat < 65535) : t.elapsed.toNat = s.elapsed.toNat + 1 ∧ t.subsec = 0#16 := by
  obtain ⟨-, -, hpos, -⟩ := divider_bounds s.cfg
  obtain ⟨-, hsubsec, helapsed⟩ := h
  rw [h0, BitVec.toNat_zero, Nat.zero_add, Nat.mod_self] at hsubsec
  rw [h0, BitVec.toNat_zero, Nat.zero_add, Nat.div_self hpos] at helapsed
  exact ⟨by omega, BitVec.eq_of_toNat_eq hsubsec⟩

/-- From SUBSEC = 0, fewer steps than a period add nothing to ELAPSED. -/
theorem ElapsedSteps.of_lt_period {s t : State} {m : Nat} (h : ElapsedSteps s m t) (h0 : s.subsec = 0#16)
    (hm : m < s.cfg.data.secDiv) : t.elapsed = s.elapsed := by
  have helapsed := h.elapsed
  rw [h0, BitVec.toNat_zero, Nat.zero_add, Nat.div_eq_of_lt hm] at helapsed
  exact BitVec.eq_of_toNat_eq (by omega)

/-- Settles O50: each event of the run is one more step of `ElapsedSteps`. -/
theorem elapsedTimeClosedForm : Obligations.ElapsedTimeClosedForm := by
  intro m s hlegal hw
  obtain ⟨t, hrun, ht⟩ := runSteps_of_nextWords (i := .etck) rfl hw (elapsedSteps_zero hlegal)
    fun m u e rest t _ _ hx hu => by
      have hpresent : ElapsedSteps s m (u.present e rest) := { hu with }
      cases hx
      exact hpresent.elapsedStep
  refine ⟨t, hrun, ht.subsec, ht.elapsed, fun h0 htop => ⟨fun hm => ?_, ht.of_lt_period h0⟩⟩
  subst hm
  exact ht.of_period h0 htop

/-! ### Slow ticks (R171, R180) -/

/-- Neither the mute sample nor the elapsed-time step writes PHASE or DRIVE. -/
theorem ScansAfter.slowEvent {k : Fin 5} {q : Nat} {u : State} (h : ScansAfter k q u) :
    ScansAfter k (q + 1) (slowEvent u) := by
  obtain ⟨hphase, hdriven⟩ := h.scanStep
  rw [Machine.slowEvent, elapsedStep_eq]
  exact ⟨hphase, hdriven⟩

/-- Neither the scan step nor the mute sample writes SUBSEC or ELAPSED. -/
theorem ElapsedSteps.slowEvent {s u : State} {q : Nat} (h : ElapsedSteps s q u) :
    ElapsedSteps s (q + 1) (slowEvent u) := by
  have hparts : ElapsedSteps s q (muteSample (scanStep u)) := by
    rw [scanStep_eq]
    exact { h with }
  exact hparts.elapsedStep

/-- `u` stands `m` events TKS after `s`: one slow event for each match of the divider. -/
structure SlowTicks (s : State) (m : Nat) (u : State) : Prop where
  scnt : u.scnt.toNat = (s.scnt.toNat + m) % s.cfg.data.slowDiv
  scans : ScansAfter s.phase ((s.scnt.toNat + m) / s.cfg.data.slowDiv) u
  elapsedSteps : ElapsedSteps s ((s.scnt.toNat + m) / s.cfg.data.slowDiv) u

theorem slowTicks_zero {s : State} (h : s.scnt.toNat < s.cfg.data.slowDiv)
    (hsec : s.subsec.toNat < s.cfg.data.secDiv) : SlowTicks s 0 s := by
  have hdiv : (s.scnt.toNat + 0) / s.cfg.data.slowDiv = 0 := Nat.div_eq_of_lt h
  exact
    { scnt := (Nat.mod_eq_of_lt h).symm
      scans := by rw [hdiv]; exact scansAfter_zero s
      elapsedSteps := by rw [hdiv]; exact elapsedSteps_zero hsec }

/-- Presenting an event writes no counter. -/
theorem SlowTicks.present {s u : State} {m : Nat} (h : SlowTicks s m u) (e : Event) (rest : List Event) :
    SlowTicks s m (u.present e rest) :=
  { h with scans := { h.scans with }, elapsedSteps := { h.elapsedSteps with } }

theorem SlowTicks.slowTick {s u : State} {m : Nat} (h : SlowTicks s m u) : SlowTicks s (m + 1) (slowTick u) := by
  obtain ⟨-, hperiod, -⟩ := divider_bounds s.cfg
  have hcfg := h.elapsedSteps.cfg
  by_cases hmatch : u.scnt.toNat + 1 = s.cfg.data.slowDiv
  · obtain ⟨hmod, hdiv⟩ := succ_divMod_of_match h.scnt hmatch
    have hscans : ScansAfter s.phase _ { u with scnt := 0#16 } := { h.scans with }
    have hsteps : ElapsedSteps s _ { u with scnt := 0#16 } := { h.elapsedSteps with }
    rw [slowTick_of_match (hcfg ▸ hmatch)]
    exact
      { scnt := by rw [slowEvent_eq]; exact hmod.symm
        scans := hdiv.symm ▸ hscans.slowEvent
        elapsedSteps := hdiv.symm ▸ hsteps.slowEvent }
  · obtain ⟨hbelow, hmod, hdiv⟩ := succ_divMod_of_count hperiod h.scnt hmatch
    rw [slowTick_of_count (hcfg ▸ hmatch) hbelow]
    exact
      { scnt := hmod
        scans := hdiv.symm ▸ { h.scans with }
        elapsedSteps := hdiv.symm ▸ { h.elapsedSteps with } }

/-- Settles O45: each event of the run is one more tick of `SlowTicks`. -/
theorem slowDividerClosedForm : Obligations.SlowDividerClosedForm := by
  intro n s hlegal hsec hw
  obtain ⟨t, hrun, ht⟩ := runSteps_of_nextWords (i := .tks) rfl hw (slowTicks_zero hlegal hsec)
    fun m u e rest t _ _ hx hu => by
      cases hx
      exact (hu.present e rest).slowTick
  exact ⟨t, hrun, ht.scnt, ht.scans.phase, ht.elapsedSteps.subsec, ht.elapsedSteps.elapsed⟩

/-! ### The dividers are independent (R178) -/

/-- What a fast tick below the counter's top writes, in FCNT and in the host's part, depends on FCNT, FAST_DIV and the
host's part alone. -/
theorem exists_fastTick_writes {s : State} (hlt : s.fcnt.toNat < 65535) :
    ∃ v p, ∀ t : State, t.fcnt = s.fcnt → t.cfg = s.cfg → t.hostPart = s.hostPart →
      fastTick t = (t.writeFcnt v).setHostPart p := by
  by_cases hmatch : s.fcnt.toNat + 1 = s.cfg.data.fastDiv
  · refine ⟨0#16, { s.hostPart with trace := s.hostPart.trace ++ [.sampleTrig],
                                    pins := { s.hostPart.pins with sampleTrig := false } },
      fun t hfcnt hcfg hpart => ?_⟩
    rw [fastTick_of_match (by rwa [hfcnt, hcfg]), ← hpart]
    rfl
  · refine ⟨s.fcnt + 1#16, s.hostPart, fun t hfcnt hcfg hpart => ?_⟩
    rw [fastTick_of_count (by rwa [hfcnt, hcfg]) (by rwa [hfcnt]), hfcnt, ← hpart]
    rfl

/-- Settles O54: a slow tick keeps all that a fast tick reads, and commutes with what it writes. -/
theorem fastAndSlowTicksCommute : Obligations.FastAndSlowTicksCommute := by
  intro s hinv
  obtain ⟨⟨-, hmax⟩, -⟩ := divider_bounds s.cfg
  obtain ⟨v, p, hwrites⟩ := exists_fastTick_writes (hinv.fcntBelow.trans_le hmax)
  have hx : exec .tks s = .next (slowTick s) := rfl
  refine execSeq_comm rfl rfl rfl (congrArg Host.Outcome.next ?_)
  rw [hwrites s rfl rfl rfl, slowTick_setHostPart, slowTick_writeFcnt]
  exact hwrites (slowTick s) (slowTick_fcnt s) (exec_cfg hx) (source_hostPart rfl (by simp) hx)

end Sys2Proof.Machine
end

section
/-! Proofs of the statements about stops, runs and the serial link: no operation stops, a run of legal words never does,
and the waveform of a frame, edge by edge (spec/60_exceptions.md). -/

namespace Sys2Proof.Machine

/-! ### No operation stops (R200) -/

/-- Settles O6: every arm of `exec` answers a next state, and there is no fault for a step to answer. -/
theorem everyOperationCompletes : Obligations.EveryOperationCompletes :=
  ⟨exec_next, fun _ r => nomatch r⟩

/-! ### Runs of legal words (R212) -/

/-- A step that goes on consumes the next event; an idle step leaves none. -/
theorem step_events {s t : State} (hs : step s = .next t) : t.events = s.events.tail := by
  obtain ⟨he, rfl⟩ | ⟨e, rest, i, he, -, hx⟩ := step_next_cases s t hs
  · rw [he]; rfl
  · rw [he]; exact exec_events hx

/-- A state whose pending events are among legal ones has legal ones. -/
theorem State.PendingLegal.of_subset {s t : State} (h : s.PendingLegal) (hsub : t.events ⊆ s.events) :
    t.PendingLegal := fun e he => h e (hsub he)

/-- An idle step goes on, and so does a step with a legal word next. -/
theorem State.PendingLegal.exists_step {s : State} (h : s.PendingLegal) : ∃ t, step s = .next t := by
  cases he : s.events with
  | nil => exact ⟨s, step_idle s he⟩
  | cons e rest =>
    obtain ⟨i, hd⟩ := h e (he ▸ List.mem_cons_self)
    rw [step_present he hd]
    exact exec_next i _

/-- A run of legal words completes, and consumes one event a step as long as there are any (R212). -/
theorem State.PendingLegal.exists_run {s : State} (h : s.PendingLegal) (n : Nat) :
    ∃ t, runSteps n s = .next t ∧ t.events = s.events.drop n := by
  induction n generalizing s with
  | zero => exact ⟨s, rfl, rfl⟩
  | succ n ih =>
    obtain ⟨u, hs⟩ := h.exists_step
    have hu := step_events hs
    obtain ⟨t, hrun, ht⟩ := ih (h.of_subset (hu ▸ List.tail_subset s.events))
    refine ⟨t, (runSteps_of_step n hs).trans hrun, ?_⟩
    rw [ht, hu, List.drop_tail]

/-- Settles O9: the run completes, the events it leaves are among those it found, and every step keeps the invariant. -/
theorem runsOfLegalWordsNeverStop : Obligations.RunsOfLegalWordsNeverStop := by
  intro n s h
  obtain ⟨t, hrun, ht⟩ := h.exists_run n
  refine ⟨t, hrun, ht, h.of_subset (ht ▸ List.drop_subset n s.events), fun hinv => ?_⟩
  exact runSteps_induction hinv (fun _ u v _ _ hv hu => stepKeepsLegality u v hu hv) hrun

/-! ### The waveform of a frame (R221, R222) -/

section
variable (p : Pins) (r l : Byte)

/-- The last edge of a frame is the release of chip-select. -/
theorem frameWaveform_getLast? :
    (frameWaveform p r l).getLast? = some { p with csN := true, sck := true, sdo := l.getLsbD 0 } :=
  List.getLast?_concat

/-- Before its last edge a frame is the fall of chip-select and sixteen clock pulses. -/
theorem frameWaveform_dropLast : (frameWaveform p r l).dropLast =
    { p with csN := false, sck := true } :: (wireBits r l).flatMap (clockPulse p) :=
  List.dropLast_concat

end

section
variable {p q : Pins} {bits : List Bool}

/-- A clock pulse holds chip-select low and keeps the trigger pin. -/
theorem pins_of_mem_pulses (hq : q ∈ bits.flatMap (clockPulse p)) :
    q.csN = false ∧ q.sampleTrig = p.sampleTrig := by
  obtain ⟨b, -, hb⟩ := List.mem_flatMap.mp hq
  rw [clockPulse, List.mem_pair] at hb
  obtain rfl | rfl := hb <;> exact ⟨rfl, rfl⟩

/-- The chip latches one bit in each clock pulse, and none at the release of chip-select. -/
theorem latchedBits_pulses {last : Pins} (hlast : last.csN = true) :
    latchedBits q (bits.flatMap (clockPulse p) ++ [last]) = bits := by
  induction bits generalizing q with
  | nil => simp [latchedBits, hlast]
  | cons b bits ih => simp [clockPulse, latchedBits, ih]

/-- From the idle clock each clock pulse has one falling edge, and the release of chip-select none. -/
theorem leadingEdges_pulses {last : Pins} (hidle : q.sck = true) (hlast : last.sck = true) :
    leadingEdges q (bits.flatMap (clockPulse p) ++ [last]) = bits := by
  induction bits generalizing q with
  | nil => simp [leadingEdges, hlast]
  | cons b bits ih => simp [clockPulse, leadingEdges, hidle, ih]

end

section
variable {p : Pins} (r l : Byte)

/-- From the released link the chip latches the data bits in wire order: the fall of chip-select is no rising edge of a
selected chip. -/
theorem latchedBits_frameWaveform (hcs : p.csN = true) : latchedBits p (frameWaveform p r l) = wireBits r l := by
  have hfall (ps : List Pins) : latchedBits p ({ p with csN := false, sck := true } :: ps) =
      latchedBits { p with csN := false, sck := true } ps := if_neg (by simp [hcs])
  exact (hfall _).trans (latchedBits_pulses rfl)

/-- SDO takes the data bits in wire order at the falling edges of the clock: at the fall of chip-select the clock is
high. -/
theorem leadingEdges_frameWaveform : leadingEdges p (frameWaveform p r l) = wireBits r l := by
  have hfall (ps : List Pins) : leadingEdges p ({ p with csN := false, sck := true } :: ps) =
      leadingEdges { p with csN := false, sck := true } ps := if_neg (by simp)
  exact (hfall _).trans (leadingEdges_pulses rfl rfl)

/-- A frame holds chip-select low up to its last edge. -/
theorem csN_of_mem_frameWaveform_dropLast {q : Pins} (hq : q ∈ (frameWaveform p r l).dropLast) : q.csN = false := by
  rw [frameWaveform_dropLast, List.mem_cons] at hq
  obtain rfl | hq := hq
  · rfl
  · exact (pins_of_mem_pulses hq).1

/-- The last clock pulse of a frame carries the least significant bit of the left byte. -/
theorem frameWaveform_dropLast_getLast? : (frameWaveform p r l).dropLast.getLast? =
    some { p with csN := false, sck := true, sdo := l.getLsbD 0 } := by
  rw [frameWaveform_dropLast]
  rfl

/-- No edge of a frame moves the trigger pin. -/
theorem sampleTrig_of_mem_frameWaveform {q : Pins} (hq : q ∈ frameWaveform p r l) :
    q.sampleTrig = p.sampleTrig := by
  rw [frameWaveform, List.mem_append, List.mem_append, List.mem_singleton, List.mem_singleton] at hq
  obtain (rfl | hq) | rfl := hq
  · rfl
  · exact (pins_of_mem_pulses hq).2
  · rfl

end

/-- Settles O35: `wireBits` is the sixteen bits in order, and the clock is high already when chip-select falls. -/
theorem frameWaveformDeliversRightThenLeft : Obligations.FrameWaveformDeliversRightThenLeft := by
  intro p r l hcs hsck bits
  have hfall : ({ p with csN := false, sck := true } : Pins) = { p with csN := false } := by rw [← hsck]
  exact ⟨latchedBits_frameWaveform r l hcs, leadingEdges_frameWaveform r l, congrArg some hfall,
    fun _ hq => csN_of_mem_frameWaveform_dropLast r l hq, frameWaveform_dropLast_getLast? r l,
    frameWaveform_getLast? p r l, fun _ hq => sampleTrig_of_mem_frameWaveform r l hq⟩

/-- A frame leaves the pins as its waveform ends, with the last bit of the left byte on SDO (R222 (4)). -/
theorem sendFrame_pins (s : State) : (sendFrame s).pins =
    { s.pins with csN := true, sck := true, sdo := (sendFrame s).yl.getLsbD 0 } := by
  rw [sendFrame_eq]

/-- Settles O34: SEND and UPDT end with a frame, and what UPDT computes before it leaves the pins. -/
theorem frameLeavesTheLinkIdle : Obligations.FrameLeavesTheLinkIdle := by
  intro i s t hi hx
  have hpins : t.pins = { s.pins with csN := true, sck := true, sdo := t.yl.getLsbD 0 } := by
    obtain rfl | rfl := hi <;> cases hx
    · exact sendFrame_pins s
    · exact sendFrame_pins (updateBytes (updateLevel s))
  exact ⟨hpins, hpins ▸ frameWaveform_getLast? s.pins t.yr t.yl⟩

end Sys2Proof.Machine
end

section
/-! Proof of the statement about the reset input (spec/70_reset_and_hazards.md R240, R241): what RST leaves of a state,
field by field, and R46's values from the statement about the reset state. -/

namespace Sys2Proof.Machine

section
variable (s : State)

/-- The registers after RST are those of the reset state under the configuration that stands (R240, R241). -/
@[simp] theorem rst_outPorts : s.rst.outPorts = (State.resetWith s.cfg s.freeIdx).outPorts := rfl
@[simp] theorem rst_pins : s.rst.pins = (State.resetWith s.cfg s.freeIdx).pins := rfl
@[simp] theorem rst_trace : s.rst.trace = (State.resetWith s.cfg s.freeIdx).trace := rfl
@[simp] theorem rst_cfg : s.rst.cfg = s.cfg := rfl
@[simp] theorem rst_events : s.rst.events = s.events := rfl

end

/-- The free value of a reset is the level of SDO, which is on no register port (R46). -/
theorem resetWith_outPorts_congr (c : Config) (j k : Nat) :
    (State.resetWith c j).outPorts = (State.resetWith c k).outPorts := by
  obtain ⟨-, hreset⟩ := resetStateHasTheSpecifiedValues
  exact (hreset c j).1.trans (hreset c k).1.symm

/-- Settles O2: RST is a reset under the standing configuration, whose outputs are R46's whatever SDO's free level is. -/
theorem resetInputRestoresTheResetState : Obligations.ResetInputRestoresTheResetState := by
  intro s
  obtain ⟨-, hreset⟩ := resetStateHasTheSpecifiedValues
  obtain ⟨-, -, hcs, hsck, htrig, htrace, -⟩ := hreset s.cfg s.freeIdx
  have hports : s.rst.outPorts = (State.resetWith s.cfg 0).outPorts :=
    (rst_outPorts s).trans (resetWith_outPorts_congr s.cfg s.freeIdx 0)
  rw [rst_trace, rst_pins, rst_cfg, rst_events]
  exact ⟨hports, htrace, hcs, hsck, htrig, rfl, rfl⟩

end Sys2Proof.Machine
end
